-- ==== Sys2Proof/Word.lean ====
section
/-! DEFINITION. The word types of the LCD controller FSM (spec 30_encoding.md R80). All values are unsigned (R12). -/

namespace Sys2Proof

/-- One byte: a payload byte, a bus answer, an emitted instruction or data byte, a control register image (R80, R82). -/
abbrev Byte := BitVec 8

/-- A command word or a response word (R83, R87). -/
abbrev Word := BitVec 32

/-- A response value, a payload index, a count of transfers, a wait in microseconds (R10, R33, R87). -/
abbrev Half := BitVec 16

end Sys2Proof
end

