-- ==== Sys2Proof/Config.lean ====
section
/-! DEFINITION. What is fixed for the machine and not state: the parameters of spec 00_scope.md R10, and the free
values. The two line tables are OPEN parameters (R10, R64, D12): they are constants without a body, so that no proof can
rest on a number the source does not give. -/

namespace Sys2Proof

/-- Four 7-bit DDRAM start addresses, one for each logical line 0..3 (R31). -/
structure LineTable where
  line0 : BitVec 7
  line1 : BitVec 7
  line2 : BitVec 7
  line3 : BitVec 7
deriving DecidableEq, Repr, Inhabited

/-- The width class of a display (R16, R32): the `WCLASS` bit of the ROM form, 0 = narrow, 1 = wide. -/
inductive WidthClass where
  | narrow
  | wide
deriving DecidableEq, Repr

namespace Config

/-- `T_POWER_SETTLE_US` (R10, R128). -/
def tPowerSettleUs : Half := 50000
/-- `T_BURST_US[0]` (R10, R126, R127). -/
def tBurst0Us : Half := 4500
/-- `T_BURST_US[1]` (R10, R126, R127). -/
def tBurst1Us : Half := 4500
/-- `T_BURST_US[2]` (R10, R126, R127). -/
def tBurst2Us : Half := 150
/-- `T_CLEAR_HOME_US` (R10, R140, R141). -/
def tClearHomeUs : Half := 2000
/-- `CG_ROWS`: the rows of a glyph slot (R10, R62). -/
def cgRows : Nat := 8
/-- `MAX_LINES` (R10, D11). -/
def maxLines : Nat := 4
/-- `NARROW_MAX_WIDTH`: the greatest width of the narrow width class (R10, D12). -/
def narrowMaxWidth : Nat := 16
/-- `NIBBLE_RESYNC` (R10, R96, D6). -/
def nibbleResync : BitVec 4 := 0x3
/-- `NIBBLE_MODEFIX` (R10, R96, D6). -/
def nibbleModefix : BitVec 4 := 0x2

/-- `LINE_BASE_NARROW[0..3]`, an OPEN parameter (R10, R64; log entry 8). -/
opaque lineBaseNarrow : LineTable

/-- `LINE_BASE_WIDE[0..3]`, an OPEN parameter (R10, R64; log entry 8). -/
opaque lineBaseWide : LineTable

/-- Free value: what a read of the line table answers at an index above 3. No rule of the spec gives it; it is read only
in states with `LINES` outside 1..4, which no run reaches (R145; log entry 9). -/
opaque lineBeyondTable : Nat → BitVec 7

end Config

end Sys2Proof
end

