-- ==== Sys2Proof/Syntax.lean ====
section
/-! DEFINITION. The instructions: one constructor for each row of spec/opcode_table.json. The sixteen commands the block
accepts (spec 30_encoding.md R84, R85, operands as in R86), then the eleven forms it emits on the bus (R88 to R97). Beside
them, the requests of the bus port (R82), which carry the emitted forms. -/

namespace Sys2Proof

/-- The font operand P of INIT (R86, D13): 8-row glyphs ("5x8") or 10-row glyphs ("5x10"). -/
inductive Font where
  | rows8
  | rows10
deriving DecidableEq, Repr

/-- A transfer mode (R16, R25): the `TM` register, INIT's preference M, and the answer of `BusNegotiate`. -/
inductive TransferMode where
  | fourBit
  | eightBit
deriving DecidableEq, Repr

/-- SHIFT's direction operand R (R148): 0 = left, 1 = right. -/
inductive ShiftDir where
  | left
  | right
deriving DecidableEq, Repr

/-- TEXTDIR's operand (R162, R163): 0 = right-to-left, 1 = left-to-right. -/
inductive TextDir where
  | rightToLeft
  | leftToRight
deriving DecidableEq, Repr

/-- The instructions. The first sixteen are the command set `LCDC-FSM-CMD/1`; the payload bytes of PATTERN and WRITE come
through the payload port (R102) and are no part of the command word. The `lcd…` constructors are the subset of the
LCD instruction set the block emits, the two bring-up nibbles, and a data byte. -/
inductive Instr where
  /-- R120: width W, height H (lines), font P, preferred transfer mode M. -/
  | init (width : BitVec 8) (height : BitVec 3) (font : Font) (preferred : TransferMode)
  /-- R131. -/
  | deinit
  /-- R140. -/
  | clear
  /-- R142. -/
  | home
  /-- R144: column, line. -/
  | setcur (col line : BitVec 8)
  /-- R148: direction R, cursor_only CO. -/
  | shift (dir : ShiftDir) (cursorOnly : Bool)
  /-- R162. -/
  | textdir (dir : TextDir)
  /-- R164. -/
  | autoscroll (enable : Bool)
  /-- R166. -/
  | display (enable : Bool)
  /-- R168. -/
  | cursor (enable : Bool)
  /-- R170. -/
  | blink (enable : Bool)
  /-- R181: glyph slot; eight payload bytes follow. -/
  | pattern (slot : BitVec 3)
  /-- R185: the number of payload bytes that follow. -/
  | write (len : BitVec 16)
  /-- R200. -/
  | blsup
  /-- R202. -/
  | blset (enable : Bool)
  /-- R204. -/
  | blget
  /-- R94: `0b00000001`. -/
  | lcdClear
  /-- R95: `0b00000010`. -/
  | lcdHome
  /-- R88: `0b000001IS`. -/
  | lcdEntryMode (i s : Bool)
  /-- R89: `0b00001DCB`. -/
  | lcdDisplayControl (d c b : Bool)
  /-- R90: `0b0001SR00`. -/
  | lcdShift (s r : Bool)
  /-- R91: `0b001LNF00`. -/
  | lcdFunctionSet (l n f : Bool)
  /-- R93: `0b01sss000`. -/
  | lcdSetCgram (slot : BitVec 3)
  /-- R92: `0b1aaaaaaa`. -/
  | lcdSetDdram (addr : BitVec 7)
  /-- R96: the resynchronization nibble `0b0011`. -/
  | lcdNibbleResync
  /-- R96: the mode-fix nibble `0b0010`. -/
  | lcdNibbleModefix
  /-- R97: any data byte. -/
  | lcdData (byte : BitVec 8)
deriving DecidableEq, Repr

/-- A request on the bus request port (R14, R82), one constructor for each request kind 0..7. -/
inductive BusReq where
  /-- Kind 0, `BusInit`. -/
  | init
  /-- Kind 1, `BusNegotiate`, with the preferred mode. -/
  | negotiate (preferred : TransferMode)
  /-- Kind 2, `BusInstr`, an instruction byte. -/
  | instr (op : Byte)
  /-- Kind 3, `BusNibble`, one bring-up nibble. -/
  | nibble (n : BitVec 4)
  /-- Kind 4, `BusData`, a data byte. -/
  | data (b : Byte)
  /-- Kind 5, `BusBlSupported`. -/
  | blSupported
  /-- Kind 6, `BusBlSet`. -/
  | blSet (enable : Bool)
  /-- Kind 7, `BusBlGet`. -/
  | blGet
deriving DecidableEq, Repr

/-- Whether an instruction is one of the sixteen commands of the command port (R84). -/
def Instr.isCommand : Instr → Bool
  | .init _ _ _ _ | .deinit | .clear | .home | .setcur _ _ | .shift _ _ | .textdir _ | .autoscroll _
  | .display _ | .cursor _ | .blink _ | .pattern _ | .write _ | .blsup | .blset _ | .blget => true
  | .lcdClear | .lcdHome | .lcdEntryMode _ _ | .lcdDisplayControl _ _ _ | .lcdShift _ _
  | .lcdFunctionSet _ _ _ | .lcdSetCgram _ | .lcdSetDdram _ | .lcdNibbleResync | .lcdNibbleModefix
  | .lcdData _ => false

end Sys2Proof
end

