-- ==== Sys2Proof/WellFormed.lean ====
section
/-! DEFINITION. Which instructions are well formed. Every operand field has its exact width in the syntax, so the one
check left is the value constraint on INIT's line count (spec 30_encoding.md R85, R100 (c), D11). -/

namespace Sys2Proof

/-- INIT's H is a legal line count: 1..4 (R30, R85, R100). -/
def legalLines (h : BitVec 3) : Bool :=
  1 ≤ h.toNat && h.toNat ≤ Config.maxLines

/-- The value constraints an instruction must meet beside its encoding's mask and match. -/
def Instr.wellFormed : Instr → Bool
  | .init _ h _ _ => legalLines h
  | .deinit | .clear | .home | .setcur _ _ | .shift _ _ | .textdir _ | .autoscroll _ | .display _
  | .cursor _ | .blink _ | .pattern _ | .write _ | .blsup | .blset _ | .blget | .lcdClear | .lcdHome
  | .lcdEntryMode _ _ | .lcdDisplayControl _ _ _ | .lcdShift _ _ | .lcdFunctionSet _ _ _
  | .lcdSetCgram _ | .lcdSetDdram _ | .lcdNibbleResync | .lcdNibbleModefix | .lcdData _ => true

end Sys2Proof
end

