-- ==== Sys2Proof/Decode.lean ====
section
/-! DEFINITION. The decoders, total on every command word (spec 30_encoding.md R101) and on every bus request (R88 to
R97), rejecting by name, and after them the encoders, written from the same tables. -/

namespace Sys2Proof

/-- Why a word or a bus request is no instruction. The first three are the cases (a), (b), (c) of R100. -/
inductive DecodeError where
  /-- R100 (a): `OP` is 0x00 or 0x11..0x1F. -/
  | reservedOpcode
  /-- R100 (b): a must-be-zero bit is set, so that the word misses its row's match under its mask (R85). -/
  | mustBeZero
  /-- R100 (c): INIT with H = 0, 5, 6 or 7. -/
  | lineCount
  /-- A byte or nibble that no row of the emitted forms R88 to R96 covers. -/
  | notAnLcdForm
  /-- A control request of the adapter (kinds 0, 1, 5, 6, 7 of R82): it carries no emitted form. -/
  | controlRequest
deriving DecidableEq, Repr

/-! ### Bit fields -/

/-- The field of `n` bits of a word whose lowest bit is `lo` (R12). -/
def field (w : Word) (lo n : Nat) : BitVec n := w.extractLsb' lo n

/-- Bit `i` of a word as a Boolean (R12). -/
def wordBit (w : Word) (i : Nat) : Bool := w.getLsbD i

/-- P as a font: 1 is the 10-row font (R86). -/
def fontOfBit (b : Bool) : Font := if b then .rows10 else .rows8

/-- The bit that stands for a font (R86). -/
def Font.bit : Font → Bool
  | .rows8 => false
  | .rows10 => true

/-- A transfer mode from its bit: 1 is 8-bit (R25, R82, R86). -/
def modeOfBit (b : Bool) : TransferMode := if b then .eightBit else .fourBit

/-- The bit that stands for a transfer mode (R25, R82, R86). -/
def TransferMode.bit : TransferMode → Bool
  | .fourBit => false
  | .eightBit => true

/-- SHIFT's R: 1 is right (R86, R148). -/
def shiftDirOfBit (b : Bool) : ShiftDir := if b then .right else .left

/-- The bit that stands for a shift direction (R86, R148). -/
def ShiftDir.bit : ShiftDir → Bool
  | .left => false
  | .right => true

/-- TEXTDIR's operand: 1 is left-to-right (R85, R162). -/
def textDirOfBit (b : Bool) : TextDir := if b then .leftToRight else .rightToLeft

/-- The bit that stands for a text direction (R85, R163). -/
def TextDir.bit : TextDir → Bool
  | .rightToLeft => false
  | .leftToRight => true

/-! ### The command decoder -/

/-- The command code `OP` of a word (R83). -/
def opcode (w : Word) : BitVec 5 := field w 0 5

/-- One row of the command table: the mask and match of R85 and the operands of R86 read from the word. -/
structure CommandRow where
  mask : Word
  pattern : Word
  instr : Instr
deriving DecidableEq, Repr

/-- The row of R84 and R85 for a command code, its operands assembled from the word as R86 says; none for a reserved
code. -/
def commandRow (op : Nat) (w : Word) : Option CommandRow :=
  match op with
  | 0x01 => some ⟨0xFFE000FF, 0x01, .init (field w 8 8) (field w 16 3) (fontOfBit (wordBit w 19)) (modeOfBit (wordBit w 20))⟩
  | 0x02 => some ⟨0xFFFFFFFF, 0x02, .deinit⟩
  | 0x03 => some ⟨0xFFFFFFFF, 0x03, .clear⟩
  | 0x04 => some ⟨0xFFFFFFFF, 0x04, .home⟩
  | 0x05 => some ⟨0xFF0000FF, 0x05, .setcur (field w 8 8) (field w 16 8)⟩
  | 0x06 => some ⟨0xFFFFFCFF, 0x06, .shift (shiftDirOfBit (wordBit w 8)) (wordBit w 9)⟩
  | 0x07 => some ⟨0xFFFFFEFF, 0x07, .textdir (textDirOfBit (wordBit w 8))⟩
  | 0x08 => some ⟨0xFFFFFEFF, 0x08, .autoscroll (wordBit w 8)⟩
  | 0x09 => some ⟨0xFFFFFEFF, 0x09, .display (wordBit w 8)⟩
  | 0x0A => some ⟨0xFFFFFEFF, 0x0A, .cursor (wordBit w 8)⟩
  | 0x0B => some ⟨0xFFFFFEFF, 0x0B, .blink (wordBit w 8)⟩
  | 0x0C => some ⟨0xFFFFF8FF, 0x0C, .pattern (field w 8 3)⟩
  | 0x0D => some ⟨0x0000FFFF, 0x0D, .write (field w 16 16)⟩
  | 0x0E => some ⟨0xFFFFFFFF, 0x0E, .blsup⟩
  | 0x0F => some ⟨0xFFFFFEFF, 0x0F, .blset (wordBit w 8)⟩
  | 0x10 => some ⟨0xFFFFFFFF, 0x10, .blget⟩
  | _ => none

/-- `decode(cmd)` of R101: the code, then the must-be-zero bits, then INIT's line count. -/
def decodeCommand (w : Word) : Except DecodeError Instr :=
  match commandRow (opcode w).toNat w with
  | none => .error .reservedOpcode
  | some row =>
    if w &&& row.mask = row.pattern then
      if row.instr.wellFormed then .ok row.instr else .error .lineCount
    else .error .mustBeZero

/-- `paylen(cmd)` of R102: the payload bytes that follow a word, by its `OP` and `cmd[31:16]` alone, legal or not. -/
def paylen (w : Word) : Nat :=
  if opcode w = 0x0C then Config.cgRows
  else if opcode w = 0x0D then (field w 16 16).toNat
  else 0

/-! ### The decoder of the emitted forms -/

/-- The emitted instruction a byte is, by the patterns of R88 to R95. -/
def decodeLcdByte (b : Byte) : Except DecodeError Instr :=
  if b = 0x01 then .ok .lcdClear
  else if b = 0x02 then .ok .lcdHome
  else if b &&& 0xFC = 0x04 then .ok (.lcdEntryMode (b.getLsbD 1) (b.getLsbD 0))
  else if b &&& 0xF8 = 0x08 then .ok (.lcdDisplayControl (b.getLsbD 2) (b.getLsbD 1) (b.getLsbD 0))
  else if b &&& 0xF3 = 0x10 then .ok (.lcdShift (b.getLsbD 3) (b.getLsbD 2))
  else if b &&& 0xE3 = 0x20 then .ok (.lcdFunctionSet (b.getLsbD 4) (b.getLsbD 3) (b.getLsbD 2))
  else if b &&& 0xC7 = 0x40 then .ok (.lcdSetCgram (b.extractLsb' 3 3))
  else if b &&& 0x80 = 0x80 then .ok (.lcdSetDdram (b.extractLsb' 0 7))
  else .error .notAnLcdForm

/-- The bring-up nibble a nibble is (R96). -/
def decodeLcdNibble (n : BitVec 4) : Except DecodeError Instr :=
  if n = Config.nibbleResync then .ok .lcdNibbleResync
  else if n = Config.nibbleModefix then .ok .lcdNibbleModefix
  else .error .notAnLcdForm

/-- The emitted form a bus request carries: the request kind tells an instruction byte, a nibble and a data byte apart
(R82, R88 to R97). -/
def decodeRequest : BusReq → Except DecodeError Instr
  | .instr op => decodeLcdByte op
  | .nibble n => decodeLcdNibble n
  | .data b => .ok (.lcdData b)
  | .init | .negotiate _ | .blSupported | .blSet _ | .blGet => .error .controlRequest

/-- Where an instruction stands and what is written there: a word on the command port (R83) or a request on the bus port
(R82). -/
inductive Encoding where
  | command (w : Word)
  | request (r : BusReq)
deriving DecidableEq, Repr

/-- The decoder: total, by port. -/
def decode : Encoding → Except DecodeError Instr
  | .command w => decodeCommand w
  | .request r => decodeRequest r

/-! ### The encoders -/

/-- A command word from its four bytes: `C`, `B`, `A`, and `OP` with the zero bits `Z` above it (R83). -/
def commandWordOf (op a b c : Byte) : Word := c ++ b ++ a ++ op

/-- A flag in bit 0 of an operand byte (R85). -/
def flagByte (b : Bool) : Byte := if b then 1 else 0

/-- INIT's operand byte `B`: H in bits 2:0, P in bit 3, M in bit 4 (R85). -/
def initByteB (h : BitVec 3) (p : Font) (m : TransferMode) : Byte :=
  (0 : BitVec 3) ++ BitVec.ofBool m.bit ++ BitVec.ofBool p.bit ++ h

/-- SHIFT's operand byte `A`: R in bit 0, CO in bit 1 (R85). -/
def shiftByteA (r : ShiftDir) (co : Bool) : Byte :=
  (0 : BitVec 6) ++ BitVec.ofBool co ++ BitVec.ofBool r.bit

/-- PATTERN's operand byte `A`: the slot in bits 2:0 (R85). -/
def patternByteA (slot : BitVec 3) : Byte := (0 : BitVec 5) ++ slot

/-- The word of a command (R83 to R85). The emitted forms are no commands: their word is 0, which is illegal (R84). -/
def commandWord : Instr → Word
  | .init w h p m => commandWordOf 0x01 w (initByteB h p m) 0
  | .deinit => commandWordOf 0x02 0 0 0
  | .clear => commandWordOf 0x03 0 0 0
  | .home => commandWordOf 0x04 0 0 0
  | .setcur col line => commandWordOf 0x05 col line 0
  | .shift r co => commandWordOf 0x06 (shiftByteA r co) 0 0
  | .textdir d => commandWordOf 0x07 (flagByte d.bit) 0 0
  | .autoscroll b => commandWordOf 0x08 (flagByte b) 0 0
  | .display b => commandWordOf 0x09 (flagByte b) 0 0
  | .cursor b => commandWordOf 0x0A (flagByte b) 0 0
  | .blink b => commandWordOf 0x0B (flagByte b) 0 0
  | .pattern slot => commandWordOf 0x0C (patternByteA slot) 0 0
  | .write len => commandWordOf 0x0D 0 (len.extractLsb' 0 8) (len.extractLsb' 8 8)
  | .blsup => commandWordOf 0x0E 0 0 0
  | .blset b => commandWordOf 0x0F (flagByte b) 0 0
  | .blget => commandWordOf 0x10 0 0 0
  | .lcdClear | .lcdHome | .lcdEntryMode _ _ | .lcdDisplayControl _ _ _ | .lcdShift _ _
  | .lcdFunctionSet _ _ _ | .lcdSetCgram _ | .lcdSetDdram _ | .lcdNibbleResync | .lcdNibbleModefix
  | .lcdData _ => 0

/-- The byte `0b000001IS` (R88). -/
def entryModeByte (i s : Bool) : Byte := (0b000001 : BitVec 6) ++ BitVec.ofBool i ++ BitVec.ofBool s

/-- The byte `0b00001DCB` (R89). -/
def displayControlByte (d c b : Bool) : Byte :=
  (0b00001 : BitVec 5) ++ BitVec.ofBool d ++ BitVec.ofBool c ++ BitVec.ofBool b

/-- The byte `0b0001SR00` (R90). -/
def shiftByte (s r : Bool) : Byte := (0b0001 : BitVec 4) ++ BitVec.ofBool s ++ BitVec.ofBool r ++ (0 : BitVec 2)

/-- The byte `0b001LNF00` (R91). -/
def functionSetByte (l n f : Bool) : Byte :=
  (0b001 : BitVec 3) ++ BitVec.ofBool l ++ BitVec.ofBool n ++ BitVec.ofBool f ++ (0 : BitVec 2)

/-- The byte `0b01sss000` (R93). -/
def cgramByte (slot : BitVec 3) : Byte := (0b01 : BitVec 2) ++ slot ++ (0 : BitVec 3)

/-- The byte `0b1aaaaaaa` (R92). -/
def ddramByte (addr : BitVec 7) : Byte := (1 : BitVec 1) ++ addr

/-- The bus request that carries an emitted form (R88 to R97); none for a command. -/
def requestOf : Instr → Option BusReq
  | .lcdClear => some (.instr 0x01)
  | .lcdHome => some (.instr 0x02)
  | .lcdEntryMode i s => some (.instr (entryModeByte i s))
  | .lcdDisplayControl d c b => some (.instr (displayControlByte d c b))
  | .lcdShift s r => some (.instr (shiftByte s r))
  | .lcdFunctionSet l n f => some (.instr (functionSetByte l n f))
  | .lcdSetCgram slot => some (.instr (cgramByte slot))
  | .lcdSetDdram addr => some (.instr (ddramByte addr))
  | .lcdNibbleResync => some (.nibble Config.nibbleResync)
  | .lcdNibbleModefix => some (.nibble Config.nibbleModefix)
  | .lcdData b => some (.data b)
  | .init _ _ _ _ | .deinit | .clear | .home | .setcur _ _ | .shift _ _ | .textdir _ | .autoscroll _
  | .display _ | .cursor _ | .blink _ | .pattern _ | .write _ | .blsup | .blset _ | .blget => none

/-- The encoder: the command word of a command, the bus request of an emitted form. -/
def encode (i : Instr) : Encoding :=
  match requestOf i with
  | some r => .request r
  | none => .command (commandWord i)

/-- The number of payload bytes that follow a command (R102). -/
def payloadLength : Instr → Nat
  | .pattern _ => Config.cgRows
  | .write len => len.toNat
  | .init _ _ _ _ | .deinit | .clear | .home | .setcur _ _ | .shift _ _ | .textdir _ | .autoscroll _
  | .display _ | .cursor _ | .blink _ | .blsup | .blset _ | .blget | .lcdClear | .lcdHome
  | .lcdEntryMode _ _ | .lcdDisplayControl _ _ _ | .lcdShift _ _ | .lcdFunctionSet _ _ _
  | .lcdSetCgram _ | .lcdSetDdram _ | .lcdNibbleResync | .lcdNibbleModefix | .lcdData _ => 0

/-! ### The opcode table's rows -/

/-- The bus request that a table row of at most eight bits stands for. The table numbers a row's bits and not its port:
the request kind (R82) is no part of them, so a value is read as the first of these that has a row for it: an
instruction byte, a bring-up nibble, a data byte. A row of four bits is a nibble (log entry 11). -/
def tableRequest (nbits w : Nat) : BusReq :=
  if nbits = 4 then .nibble (BitVec.ofNat 4 w)
  else
    match decodeLcdByte (BitVec.ofNat 8 w) with
    | .ok _ => .instr (BitVec.ofNat 8 w)
    | .error _ =>
      match decodeLcdNibble (BitVec.ofNat 4 w) with
      | .ok _ => if w < 16 then .nibble (BitVec.ofNat 4 w) else .data (BitVec.ofNat 8 w)
      | .error _ => .data (BitVec.ofNat 8 w)

/-- Where an instruction with the bits `w` of a row of spec/opcode_table.json stands: rows of more than eight bits are
command words, the others are emitted forms. -/
def tableEncoding (nbits w : Nat) : Encoding :=
  if nbits ≤ 8 then .request (tableRequest nbits w) else .command (BitVec.ofNat 32 w)

/-- The instruction this decoder reads from a row's bits, numbered as spec/opcode_table.json numbers them; bits above
`nbits` are 0. -/
def decodeTableWord (nbits w : Nat) : Option Instr :=
  match decode (tableEncoding nbits (w % 2 ^ nbits)) with
  | .ok i => some i
  | .error _ => none

end Sys2Proof
end

