-- ==== Sys2Proof/Machine/State.lean ====
section
/-! DEFINITION. The state of the block as plain data, the reasons a step can stop, and the state after reset
(spec 10_state.md, 30_encoding.md R80, 70_reset_and_hazards.md R250). -/

namespace Sys2Proof.Machine

/-- The lifecycle state `PHASE` (R23), encoded 0, 1, 2, 3 in this order. -/
inductive Phase where
  | uninit
  | ready
  | failed
  | released
deriving DecidableEq, Repr

/-- The status `ST` of a response (R87, R223), encoded 0, 1, 2, 3 in this order. -/
inductive Status where
  | ok
  | errIllegal
  | errState
  | errInitFailed
deriving DecidableEq, Repr

/-- One entry of the trace (R15): an external request with its answer. -/
inductive Event where
  /-- A bus request and the byte the adapter answered. -/
  | bus (request : BusReq) (answer : Byte)
  /-- A wait of at least so many microseconds, answered by done (R71). -/
  | wait (us : Half)
  /-- A bus request that hardware reset cut off before its answer (R251). -/
  | busCut (request : BusReq)
  /-- A wait that hardware reset cut off before its done (R251). -/
  | waitCut (us : Half)
deriving DecidableEq, Repr

/-- Why the machine stops with a fault. There is no such reason: the block has no trap and every condition is answered by
a response word (R221, R228), so no operation raises a fault and the type has no constructor (safe: nothing is cut
short). -/
inductive Fault where
deriving DecidableEq, Repr

/-- Why an instruction is refused. -/
inductive Refusal where
  /-- Raised only by an arm of `exec` whose instruction has no meaning yet; no arm is such (safe: it stops). -/
  | notModelled (mnemonic : String)
deriving DecidableEq, Repr

/-- The state. First what 10_state.md names, then what the block must also hold to answer a command (the latched word,
the count for its response, the ports' outstanding requests), then the environment's side of the input ports (answers that
have arrived or will), then the record of the output ports. -/
structure State where
  /-- `PHASE` (R23). -/
  phase : Phase
  /-- `BUSY` (R24). -/
  busy : Bool
  /-- `UPC` (R27). DESIGN CHOICE (log entry 25): an unbounded number, where R27 leaves the width to the implementation. -/
  upc : Nat
  /-- `TM` (R25). -/
  tm : TransferMode
  /-- `FS` (R26). -/
  fs : Byte
  /-- `DC` (R28). -/
  dc : Byte
  /-- `EM` (R29). -/
  em : Byte
  /-- `LINES` (R30). -/
  lines : BitVec 3
  /-- `LAT[0..3]` (R31). -/
  lat : LineTable
  /-- `K` (R33): the index of the next payload byte. -/
  k : Half
  /-- `NOK` (R33): the number of successful transfers so far. -/
  nok : Half
  /-- `STOP` (R33): set by WRITE at the first failed transfer. -/
  stop : Bool
  /-- The accepted command word, held while it runs (implied by R24, R86; log entry 4). -/
  ir : Word
  /-- The transfer count or answer the pseudocode of a command keeps in `c`, `s`, `ok` or `e` (log entry 4). -/
  cnt : Byte
  /-- The bus request port (R80): the request that stands there until its answer arrives. -/
  breq : Option BusReq
  /-- The timer request port (R80): the wait that stands there until it is done, in microseconds. -/
  treq : Option Half
  /-- The reset input `rst` (R80, R250). -/
  rst : Bool
  /-- Words the caller presents on the command port, the next one first. -/
  cmdIn : List Word
  /-- Bytes the caller presents on the payload port, the next one first. -/
  plIn : List Byte
  /-- Answers of the bus adapter, the earliest first (R236). -/
  busIn : List Byte
  /-- How many of the adapter's next answers are to requests that a reset cut off (R251). -/
  busLate : Nat
  /-- How many times the delay timer reports done (R237). -/
  timerIn : Nat
  /-- How many of the timer's next dones are of waits that a reset cut off (R251). -/
  timerLate : Nat
  /-- The external requests so far, in order, each with its answer (R15). -/
  trace : List Event
  /-- The response words so far, in order (R87). -/
  rsps : List Word
deriving DecidableEq, Repr

/-- Every register at its reset value (R39, R250), no request outstanding, no input presented, nothing recorded. -/
def State.reset : State where
  phase := .uninit
  busy := false
  upc := 0
  tm := .fourBit
  fs := 0
  dc := 0
  em := 0
  lines := 0
  lat := ⟨0, 0, 0, 0⟩
  k := 0
  nok := 0
  stop := false
  ir := 0
  cnt := 0
  breq := none
  treq := none
  rst := false
  cmdIn := []
  plIn := []
  busIn := []
  busLate := 0
  timerIn := 0
  timerLate := 0
  trace := []
  rsps := []

end Sys2Proof.Machine
end

