-- ==== Sys2Proof/Machine/Operands.lean ====
section
/-! DEFINITION. Every operand form and address computation: the read-modify-write of a control register (spec 00_scope.md
R13), the function-set derivation (R124), the line address table mapper (R31, R63, R144 to R146), the emitted bytes that
commands compute, and the encoding of the bus requests and their answers (R82). -/

namespace Sys2Proof.Machine

/-- `RMW(X, M, b)` of R13, as the value it gives: bit `M` set or cleared, every other bit kept. -/
def rmw (x mask : Byte) (b : Bool) : Byte :=
  (x &&& ~~~mask) ||| (if b then mask else 0)

/-- The direction bit of `EM` (R29). -/
def maskId : Byte := 0x02
/-- The scroll bit of `EM` (R29). -/
def maskS : Byte := 0x01
/-- The display bit of `DC` (R28). -/
def maskD : Byte := 0x04
/-- The cursor bit of `DC` (R28). -/
def maskC : Byte := 0x02
/-- The blink bit of `DC` (R28). -/
def maskB : Byte := 0x01

/-- The live bits of `FS`: `DL`, `N`, `F` (R26). -/
def liveFs : Byte := 0x1C
/-- The live bits of `DC`: `D`, `C`, `B` (R28). -/
def liveDc : Byte := 0x07
/-- The live bits of `EM`: `ID`, `S` (R29). -/
def liveEm : Byte := 0x03

/-- The function-set register INIT derives at its step s3 (R120, R124). -/
def deriveFs (tm : TransferMode) (h : BitVec 3) (p : Font) : Byte :=
  (if tm = .eightBit then 0x10 else 0) ||| (if 2 ≤ h.toNat then 0x08 else 0) |||
    (if p = .rows10 ∧ h = 1 then 0x04 else 0)

/-- The width class of a display of `w` columns (R86, R125, D12). -/
def widthClass (w : BitVec 8) : WidthClass :=
  if w.toNat ≤ Config.narrowMaxWidth then .narrow else .wide

/-- The table of a width class: what INIT loads into `LAT` (R31, R125), and the ROM of R32's ROM form. -/
def lineTableOf : WidthClass → LineTable
  | .narrow => Config.lineBaseNarrow
  | .wide => Config.lineBaseWide

/-- `LAT[l]` (R31). The index is 0..3 in every state with `LINES` in 1..4 (R145); above 3 the value is free (log entry 9). -/
def latAt (t : LineTable) : Nat → BitVec 7
  | 0 => t.line0
  | 1 => t.line1
  | 2 => t.line2
  | 3 => t.line3
  | l => Config.lineBeyondTable l

/-- The clamped line `min(line, LINES - 1)` (R63, R145), the subtraction at the width of `LINES`. -/
def clampLine (line : BitVec 8) (lines : BitVec 3) : Nat :=
  min line.toNat (lines - 1).toNat

/-- The cursor address sum `trunc_8(col + LAT[l])` (R144, R146). -/
def setcurSum (col line : BitVec 8) (lines : BitVec 3) (lat : LineTable) : Byte :=
  col + (latAt lat (clampLine line lines)).setWidth 8

/-- `setcur_op(col, line, LINES, LAT)` of R147: the byte SETCUR emits. -/
def setcurOp (col line : BitVec 8) (lines : BitVec 3) (lat : LineTable) : Byte :=
  0x80 ||| setcurSum col line lines lat

/-- The byte SHIFT emits (R148). -/
def shiftOp (r : ShiftDir) (co : Bool) : Byte :=
  0x10 ||| (if co then 0 else 0x08) ||| (if r = .right then 0x04 else 0)

/-- The byte PATTERN emits: row 0 of the slot (R62, R93, R181). -/
def cgramOp (slot : BitVec 3) : Byte :=
  0x40 ||| (slot.setWidth 8 <<< 3)

/-- The function-set instruction of a register image (R35, R91). -/
def functionSetOp (fs : Byte) : Byte := 0x20 ||| fs
/-- The display-control instruction of a register image (R35, R89). -/
def displayControlOp (dc : Byte) : Byte := 0x08 ||| dc
/-- The entry-mode instruction of a register image (R35, R88). -/
def entryModeOp (em : Byte) : Byte := 0x04 ||| em

/-- `breq_kind` of a request (R82). -/
def breqKind : BusReq → BitVec 3
  | .init => 0
  | .negotiate _ => 1
  | .instr _ => 2
  | .nibble _ => 3
  | .data _ => 4
  | .blSupported => 5
  | .blSet _ => 6
  | .blGet => 7

/-- `breq_arg` of a request (R82). -/
def breqArg : BusReq → Byte
  | .init | .blSupported | .blGet => 0
  | .negotiate m => flagByte m.bit
  | .instr op => op
  | .nibble n => (0 : BitVec 4) ++ n
  | .data b => b
  | .blSet e => flagByte e

/-- The request that a kind and an argument stand for (R82); none where a bit R82 fixes at 0 is set. -/
def breqOfPort (kind : BitVec 3) (arg : Byte) : Option BusReq :=
  match kind.toNat with
  | 0 => if arg = 0 then some .init else none
  | 1 => if arg &&& 0xFE = 0 then some (.negotiate (modeOfBit (arg.getLsbD 0))) else none
  | 2 => some (.instr arg)
  | 3 => if arg &&& 0xF0 = 0 then some (.nibble (arg.extractLsb' 0 4)) else none
  | 4 => some (.data arg)
  | 5 => if arg = 0 then some .blSupported else none
  | 6 => if arg &&& 0xFE = 0 then some (.blSet (arg.getLsbD 0)) else none
  | _ => if arg = 0 then some .blGet else none

/-- A Boolean answer: true is any byte but 0 (R82). -/
def boolAnswer (a : Byte) : Bool := a != 0

/-- The mode an adapter answers: bit 0, the others ignored (R82, R123). -/
def modeAnswer (a : Byte) : TransferMode := modeOfBit (a.getLsbD 0)

end Sys2Proof.Machine
end

