-- ==== Sys2Proof/Machine/Flags.lean ====
section
/-! DEFINITION. The status computations: the success test of a transfer, the `NOK` count and the `STOP` flag it drives
(spec 43_data_transfer.md R185 to R187, 10_state.md R33), the admission of a command by phase (60_exceptions.md R224), and
the response word (30_encoding.md R87). The block has no other flags (R33). -/

namespace Sys2Proof.Machine

/-- A transfer succeeds when its count is not 0 (R186). -/
def transferOk (c : Byte) : Bool := c != 0

/-- `NOK` after a transfer with count `c`: one more for a success, whatever its count (R181, R185, R186). -/
def countOk (c : Byte) (nok : Half) : Half := if transferOk c then nok + 1 else nok

/-- `STOP` after a data transfer of WRITE with count `c` (R185, R187). -/
def stopAfter (c : Byte) (stop : Bool) : Bool := stop || !transferOk c

/-- The `VAL` of a Boolean answer: 0 or 1 (R87, R200 to R204). -/
def boolVal (a : Byte) : Half := if boolAnswer a then 1 else 0

/-- The `VAL` of a transfer count: zero-extended (R87, D18). -/
def countVal (c : Byte) : Half := c.setWidth 16

/-- The encoding of `PHASE` (R23). -/
def phaseCode : Phase → BitVec 2
  | .uninit => 0
  | .ready => 1
  | .failed => 2
  | .released => 3

/-- The encoding of `ST` (R87, R223). -/
def statusCode : Status → BitVec 2
  | .ok => 0
  | .errIllegal => 1
  | .errState => 2
  | .errInitFailed => 3

/-- The response word: `ST` in bits 1:0, zeros in 15:2, `VAL` in 31:16 (R87). -/
def responseWord (st : Status) (val : Half) : Word := val ++ (0 : BitVec 14) ++ statusCode st

/-- The admission table of R224. The emitted forms come from the block itself and pass no admission. -/
def admitted (i : Instr) (p : Phase) : Bool :=
  match i with
  | .init _ _ _ _ => p == .uninit
  | .deinit => p != .released
  | .clear | .home | .setcur _ _ | .shift _ _ | .textdir _ | .autoscroll _ | .display _ | .cursor _
  | .blink _ | .pattern _ | .write _ | .blsup | .blset _ | .blget => p == .ready
  | .lcdClear | .lcdHome | .lcdEntryMode _ _ | .lcdDisplayControl _ _ _ | .lcdShift _ _
  | .lcdFunctionSet _ _ _ | .lcdSetCgram _ | .lcdSetDdram _ | .lcdNibbleResync | .lcdNibbleModefix
  | .lcdData _ => true

end Sys2Proof.Machine
end

