-- ==== Sys2Proof/Machine/Ops.lean ====
section
/-! DEFINITION. The named operations over the registers and the ports: register access, the response and the error
response (the block's only form of an exception, spec 60_exceptions.md R221), the bus, timer and payload handshakes (R80,
R82, R236, R237), admission (R224), hardware reset (R250, R251), and the runner of a command's micro-program (R27, R74).

An operation of type `State → Option State` is one transaction of R81. It answers `none` where the block must wait for an
input that has not arrived: the bus answer, the timer's done, or the next payload byte. -/

namespace Sys2Proof.Machine

/-! ### Registers -/

/-- `FS` as read: the bits outside `DL`, `N`, `F` are hardwired 0 (R26, R34). -/
def State.readFs (s : State) : Byte := s.fs &&& liveFs
/-- `DC` as read: bits 7:3 are hardwired 0 (R28, R34). -/
def State.readDc (s : State) : Byte := s.dc &&& liveDc
/-- `EM` as read: bits 7:2 are hardwired 0 (R29, R34). -/
def State.readEm (s : State) : Byte := s.em &&& liveEm

/-- A write of `FS`; the hardwired bits discard it. -/
def State.writeFs (v : Byte) (s : State) : State := { s with fs := v &&& liveFs }
/-- A write of `DC`; the hardwired bits discard it. -/
def State.writeDc (v : Byte) (s : State) : State := { s with dc := v &&& liveDc }
/-- A write of `EM`; the hardwired bits discard it. -/
def State.writeEm (v : Byte) (s : State) : State := { s with em := v &&& liveEm }

/-- INIT's step s4: `LINES` and all four entries of `LAT` at once (R31, R125). -/
def State.writeGeometry (h : BitVec 3) (t : LineTable) (s : State) : State := { s with lines := h, lat := t }

/-- `UPC` goes to the next micro-operation (R27). -/
def State.advance (s : State) : State := { s with upc := s.upc + 1 }

/-- Keep a transfer count or an answer for the response, and go on. -/
def State.latch (c : Byte) (s : State) : State := { s with cnt := c, upc := s.upc + 1 }

/-! ### Responses, errors among them -/

/-- `respond(status, value)` (R14, R87): the response word is driven, `BUSY` and `UPC` go to 0 (R24, R27) and the registers
that live only while a command runs are cleared (R33). -/
def State.respond (st : Status) (val : Half) (s : State) : State :=
  { s with
    busy := false, upc := 0, k := 0, nok := 0, stop := false, ir := 0, cnt := 0,
    rsps := s.rsps ++ [responseWord st val] }

/-- Taking an exception, as the block does it (R221, R228): `raise <Exception>` is a response with a nonzero status and
`VAL = 0`. No state is saved, no mode changes and no vector is taken; the return from one is that the block is idle again
(R229), which the response does. -/
def State.raiseError (st : Status) (s : State) : State := s.respond st 0

/-! ### The ports -/

/-- The adapter's answers to the requests of the block since its last reset: the late ones are ignored (R251). -/
def State.answers (s : State) : List Byte := s.busIn.drop s.busLate

/-- The timer's dones for the waits of the block since its last reset: the late ones are ignored (R251). -/
def State.dones (s : State) : Nat := s.timerIn - s.timerLate

/-- Drive a request on the bus port (R80). -/
def State.drive (r : BusReq) (s : State) : State := { s with breq := some r }

/-- The exchange of the request on the bus port with its answer (R68, R236): recorded in the trace, and the micro-operation
that made the request completes with the answer in this same transaction (`next`; R27, R81). Waits while the adapter has
not answered (R237). -/
def State.transfer (r : BusReq) (next : Byte → State → State) (s : State) : Option State :=
  match s.answers with
  | [] => none
  | a :: rest => some (next a { s with breq := none, busIn := rest, busLate := 0, trace := s.trace ++ [.bus r a] })

/-- The end of the wait on the timer port (R71, R237): recorded in the trace, and `UPC` advances (R27). -/
def State.elapse (t : Half) (s : State) : Option State :=
  match s.dones with
  | 0 => none
  | n + 1 => some { s with treq := none, timerIn := n, timerLate := 0, upc := s.upc + 1, trace := s.trace ++ [.wait t] }

/-- A micro-operation that makes a bus request (R14): drive it; its answer completes the micro-operation and advances `UPC`
(R27). -/
def State.request (r : BusReq) (s : State) : Option State := some (s.drive r)

/-- The answer to a request of a command whose response reports it: kept, and `UPC` advances (R27). -/
def State.latchAnswer (_ : BusReq) (c : Byte) (s : State) : State := s.latch c

/-- An answer no command waits for: an idle block's, or a rejected word's (no run of commands reaches one; log entry 10). -/
def State.dropAnswer (_ : BusReq) (_ : Byte) (s : State) : State := s

/-- A micro-operation that waits (R14): drive the request on the timer port; the wait's end advances `UPC`. -/
def State.wait (t : Half) (s : State) : Option State := some { s with treq := some t }

/-- `take()` (43_data_transfer.md): remove the next payload byte and go on with it; waits while none is presented. -/
def State.take (next : Byte → State → State) (s : State) : Option State :=
  match s.plIn with
  | [] => none
  | b :: rest => some (next b { s with plIn := rest })

/-- A command that is turned away (R222): take and discard its payload of `len` bytes, one byte a transaction, then
respond. -/
def State.drain (st : Status) (len : Nat) (s : State) : Option State :=
  if s.k.toNat < len then s.take (fun _ s' => { s' with k := s'.k + 1 }) else some (s.raiseError st)

/-- Admission of a command (R224, R225): a word whose value constraint fails is illegal in every phase, a legal one may be
out of place in this phase, and an admitted one goes to its first step. -/
def State.admission (i : Instr) (s : State) : Option State :=
  if i.wellFormed = true then
    if admitted i s.phase = true then some s.advance else s.drain .errState (payloadLength i)
  else s.drain .errIllegal (payloadLength i)

/-- Acceptance of a command word (R24, R27, R33): `BUSY` is 1, the word is held, `UPC` and the loop registers start at 0, and
no request is outstanding. -/
def State.accept (w : Word) (s : State) : State :=
  { s with
    busy := true, ir := w, upc := 0, k := 0, nok := 0, stop := false, cnt := 0,
    breq := none, treq := none }

/-! ### Running a micro-program -/

/-- What a running command does next where no request is outstanding: its admission at `UPC = 0`, then its own steps. -/
def commandBody (i : Instr) (micro : State → Option State) (s : State) : Option State :=
  if s.upc = 0 then s.admission i else micro s

/-- One transaction of the running command (R20, R70, R81): the outstanding bus request is answered and completes its
micro-operation (`answered`), else the outstanding wait ends, else the micro-operation `UPC` names begins. -/
def tick (body : State → Option State) (answered : BusReq → Byte → State → State) (s : State) : Option State :=
  match s.breq with
  | some r => s.transfer r (answered r)
  | none =>
    match s.treq with
    | some t => s.elapse t
    | none => body s

/-- Transactions of the running command, at most `n`, until its response is driven or it must wait for an input. -/
def run (body : State → Option State) (answered : BusReq → Byte → State → State) : Nat → State → State
  | 0, s => s
  | n + 1, s =>
    match tick body answered s with
    | none => s
    | some s' => if s'.busy then run body answered n s' else s'

/-- More transactions than a command with `len` payload bytes can make (log entry 17). -/
def runBound (len : Nat) : Nat := 3 * len + 64

/-- The meaning of a command over its micro-program and what it does with an answer: an idle block accepts its word and
runs it; a block that runs this very word goes on with it; a block that runs another word is not ready (R24) and
nothing happens. -/
def runCommand (i : Instr) (micro : State → Option State) (answered : BusReq → Byte → State → State)
    (s : State) : State :=
  if s.busy then
    if s.ir = commandWord i then run (commandBody i micro) answered (runBound (payloadLength i)) s else s
  else run (commandBody i micro) answered (runBound (payloadLength i)) (s.accept (commandWord i))

/-- A word that decodes to no command, once accepted (R100, R222): its payload is drained and the response is
`ERR_ILLEGAL`. -/
def runIllegal (w : Word) (s : State) : State :=
  run (State.drain .errIllegal (paylen w)) State.dropAnswer (runBound (paylen w)) s

/-! ### Hardware reset -/

/-- Hardware reset (R250, R251): every register at its reset value; a request that was outstanding stays unanswered in the
trace and its late answer will be ignored; no response; payload not taken stays untaken; no external request. The
inputs and the record of the outputs are the environment's and stay. -/
def State.hardReset (s : State) : State :=
  { State.reset with
    cmdIn := s.cmdIn
    plIn := s.plIn
    busIn := s.busIn
    busLate := if s.breq.isSome then s.busLate + 1 else s.busLate
    timerIn := s.timerIn
    timerLate := if s.treq.isSome then s.timerLate + 1 else s.timerLate
    trace := s.trace ++ (s.breq.map Event.busCut).toList ++ (s.treq.map Event.waitCut).toList
    rsps := s.rsps }

end Sys2Proof.Machine
end

