-- ==== Sys2Proof/Machine/Backlight.lean ====
section
/-! DEFINITION. The backlight pass-through commands BLSUP, BLSET and BLGET (spec 44_backlight.md). The block holds no
backlight state (R205). -/

namespace Sys2Proof.Machine

/-- The steps of BLSUP (R200). -/
def microBlsup (s : State) : Option State :=
  match s.upc with
  | 1 => s.request .blSupported
  | 2 => some (s.respond .ok (boolVal s.cnt))
  | _ => none

/-- BLSUP (R200). -/
def execBlsup (s : State) : Host.Outcome State Fault Refusal :=
  .next (runCommand .blsup microBlsup State.latchAnswer s)

/-- The steps of BLSET (R202). -/
def microBlset (b : Bool) (s : State) : Option State :=
  match s.upc with
  | 1 => s.request (.blSet b)
  | 2 => some (s.respond .ok (boolVal s.cnt))
  | _ => none

/-- BLSET (R202). -/
def execBlset (b : Bool) (s : State) : Host.Outcome State Fault Refusal :=
  .next (runCommand (.blset b) (microBlset b) State.latchAnswer s)

/-- The steps of BLGET (R204). -/
def microBlget (s : State) : Option State :=
  match s.upc with
  | 1 => s.request .blGet
  | 2 => some (s.respond .ok (boolVal s.cnt))
  | _ => none

/-- BLGET (R204). -/
def execBlget (s : State) : Host.Outcome State Fault Refusal :=
  .next (runCommand .blget microBlget State.latchAnswer s)

end Sys2Proof.Machine
end

