-- ==== Sys2Proof/Machine/DataTransfer.lean ====
section
/-! DEFINITION. The data-streaming commands PATTERN and WRITE (spec 43_data_transfer.md). Each payload byte is taken only
when its transfer is next (20_memory.md R75). -/

namespace Sys2Proof.Machine

/-- After the CGRAM select of PATTERN with count `c` (R181, s1). -/
def patternSelected (c : Byte) (s : State) : State := { s with nok := countOk c 0, k := 0 }.advance

/-- After a row of PATTERN with count `c` (R181, s2): no early exit (R182). -/
def patternRowSent (c : Byte) (s : State) : State := { s with nok := countOk c s.nok, k := s.k + 1 }.advance

/-- The steps of PATTERN (R181). The eight rows of s2 are eight micro-operations, so that `UPC` advances by one at each
answer (R27) and the respond step has `UPC` 10 (log entry 3). -/
def microPattern (slot : BitVec 3) (s : State) : Option State :=
  match s.upc with
  | 0 => none
  | 1 => s.request (.instr (cgramOp slot))
  | _ + 2 =>
    if s.k.toNat < Config.cgRows then s.take fun b s' => s'.drive (.data b)
    else some (s.respond .ok s.nok)

/-- What PATTERN does with a count: that of the CGRAM select, or that of a row. It makes no other request. -/
def patternAnswered (r : BusReq) (c : Byte) (s : State) : State :=
  match r with
  | .data _ => patternRowSent c s
  | .instr _ | .nibble _ | .init | .negotiate _ | .blSupported | .blSet _ | .blGet => patternSelected c s

/-- PATTERN (R181). -/
def execPattern (slot : BitVec 3) (s : State) : Host.Outcome State Fault Refusal :=
  .next (runCommand (.pattern slot) (microPattern slot) patternAnswered s)

/-- The end of an iteration of WRITE's loop (R185, s2): `UPC` stays at s2 while `K < LEN` (R188) and advances with the last byte
(R27). -/
def writeNext (len : BitVec 16) (s : State) : State :=
  { s with k := s.k + 1, upc := if s.k.toNat + 1 < len.toNat then s.upc else s.upc + 1 }

/-- After a data transfer of WRITE with count `c` (R185, s2): the first failure stops the transfers (R187). -/
def writeSent (len : BitVec 16) (c : Byte) (s : State) : State :=
  writeNext len { s with nok := countOk c s.nok, stop := stopAfter c s.stop }

/-- A payload byte of WRITE in hand (R185, s2): sent, or discarded once `STOP` is set (R189). -/
def writeByte (len : BitVec 16) (b : Byte) (s : State) : State :=
  if s.stop then writeNext len s else s.drive (.data b)

/-- The steps of WRITE (R185); with `LEN = 0` the loop ends at once (R190). -/
def microWrite (len : BitVec 16) (s : State) : Option State :=
  match s.upc with
  | 1 => some { s with k := 0, nok := 0, stop := false }.advance
  | 2 => if s.k.toNat < len.toNat then s.take (writeByte len) else some s.advance
  | 3 => some (s.respond .ok s.nok)
  | _ => none

/-- What WRITE does with a count. Its only requests are its data transfers. -/
def writeAnswered (len : BitVec 16) (_ : BusReq) (c : Byte) (s : State) : State := writeSent len c s

/-- WRITE (R185). -/
def execWrite (len : BitVec 16) (s : State) : Host.Outcome State Fault Refusal :=
  .next (runCommand (.write len) (microWrite len) (writeAnswered len) s)

end Sys2Proof.Machine
end

