-- ==== Sys2Proof/Machine/InitSequencer.lean ====
section
/-! DEFINITION. The initialization sequencer: INIT and DEINIT (spec 40_init_sequencer.md). A micro-program's arms are the
numbered steps of its rule's pseudocode, chosen by `UPC`; any other `UPC` names no step (log entry 3). -/

namespace Sys2Proof.Machine

/-- The request of a bring-up transfer (steps s6, s8, s10 of R120): a resynchronization nibble in 4-bit mode (R126), the
full function set in 8-bit mode (R127). -/
def burstRequest (s : State) : BusReq :=
  match s.tm with
  | .fourBit => .nibble Config.nibbleResync
  | .eightBit => .instr (functionSetOp s.readFs)

/-- Steps s1 to s20 of INIT (R120 to R130). -/
def microInit (w : BitVec 8) (h : BitVec 3) (p : Font) (m : TransferMode) (s : State) : Option State :=
  match s.upc with
  | 1 => s.request .init
  | 2 => s.request (.negotiate m)
  | 3 => some (s.writeFs (deriveFs s.tm h p)).advance
  | 4 => some (s.writeGeometry h (lineTableOf (widthClass w))).advance
  | 5 => s.wait Config.tPowerSettleUs
  | 6 => s.request (burstRequest s)
  | 7 => s.wait Config.tBurst0Us
  | 8 => s.request (burstRequest s)
  | 9 => s.wait Config.tBurst1Us
  | 10 => s.request (burstRequest s)
  | 11 => s.wait Config.tBurst2Us
  | 12 =>
    match s.tm with
    | .fourBit => s.request (.nibble Config.nibbleModefix)
    | .eightBit => some s.advance
  | 13 => s.request (.instr (functionSetOp s.readFs))
  | 14 => some (s.writeDc maskD).advance
  | 15 => s.request (.instr (displayControlOp s.readDc))
  | 16 => s.request (.instr 0x01)
  | 17 => s.wait Config.tClearHomeUs
  | 18 => some (s.writeEm maskId).advance
  | 19 => s.request (.instr (entryModeOp s.readEm))
  | 20 => some ({ s with phase := .ready }.respond .ok 1)
  | _ => none

/-- What INIT does with an answer, and `UPC` advances (R27): a failed bus ends it (s1, R122), the mode is stored (s2, R123), and
the counts of its transfers are not read (R130). It makes no other request. -/
def initAnswered (r : BusReq) (a : Byte) (s : State) : State :=
  match r with
  | .init => if boolAnswer a then s.advance else { s with phase := .failed }.raiseError .errInitFailed
  | .negotiate _ => { s with tm := modeAnswer a }.advance
  | .instr _ | .nibble _ | .data _ | .blSupported | .blSet _ | .blGet => s.advance

/-- INIT (R120). -/
def execInit (w : BitVec 8) (h : BitVec 3) (p : Font) (m : TransferMode) (s : State) :
    Host.Outcome State Fault Refusal :=
  .next (runCommand (.init w h p m) (microInit w h p m) initAnswered s)

/-- Step s1 of DEINIT (R131). -/
def microDeinit (s : State) : Option State :=
  match s.upc with
  | 1 => some ({ s with phase := .released }.respond .ok 0)
  | _ => none

/-- DEINIT (R131). It makes no request. -/
def execDeinit (s : State) : Host.Outcome State Fault Refusal :=
  .next (runCommand .deinit microDeinit State.latchAnswer s)

end Sys2Proof.Machine
end

