-- ==== Sys2Proof/Machine/InstructionCommands.lean ====
section
/-! DEFINITION. The single-instruction commands CLEAR, HOME, SETCUR and SHIFT (spec 41_instruction_commands.md). -/

namespace Sys2Proof.Machine

/-- The steps of CLEAR (R140). -/
def microClear (s : State) : Option State :=
  match s.upc with
  | 1 => s.request (.instr 0x01)
  | 2 => s.wait Config.tClearHomeUs
  | 3 => some (s.respond .ok (countVal s.cnt))
  | _ => none

/-- CLEAR (R140). -/
def execClear (s : State) : Host.Outcome State Fault Refusal :=
  .next (runCommand .clear microClear State.latchAnswer s)

/-- The steps of HOME (R142). -/
def microHome (s : State) : Option State :=
  match s.upc with
  | 1 => s.request (.instr 0x02)
  | 2 => s.wait Config.tClearHomeUs
  | 3 => some (s.respond .ok (countVal s.cnt))
  | _ => none

/-- HOME (R142). -/
def execHome (s : State) : Host.Outcome State Fault Refusal :=
  .next (runCommand .home microHome State.latchAnswer s)

/-- The steps of SETCUR (R144): the byte computed at s1 is a function of registers that do not change before s2 (R147), so
s1 keeps nothing and s2 computes it. -/
def microSetcur (col line : BitVec 8) (s : State) : Option State :=
  match s.upc with
  | 1 => some s.advance
  | 2 => s.request (.instr (setcurOp col line s.lines s.lat))
  | 3 => some (s.respond .ok (countVal s.cnt))
  | _ => none

/-- SETCUR (R144). -/
def execSetcur (col line : BitVec 8) (s : State) : Host.Outcome State Fault Refusal :=
  .next (runCommand (.setcur col line) (microSetcur col line) State.latchAnswer s)

/-- The steps of SHIFT (R148); s1 keeps nothing, as in SETCUR. -/
def microShift (r : ShiftDir) (co : Bool) (s : State) : Option State :=
  match s.upc with
  | 1 => some s.advance
  | 2 => s.request (.instr (shiftOp r co))
  | 3 => some (s.respond .ok (countVal s.cnt))
  | _ => none

/-- SHIFT (R148). -/
def execShift (r : ShiftDir) (co : Bool) (s : State) : Host.Outcome State Fault Refusal :=
  .next (runCommand (.shift r co) (microShift r co) State.latchAnswer s)

end Sys2Proof.Machine
end

