-- ==== Sys2Proof/Machine/Answers.lean ====
section
/-! DEFINITION. What the running command does with the answer to its bus request, by the command (spec 10_state.md R27): the
answer and everything its micro-operation does with it are one transaction (30_encoding.md R81; log entry 24). With it the
exchange of an emitted form. -/

namespace Sys2Proof.Machine

/-- What a command does with an answer. DEINIT makes no request, and the emitted forms are no commands. -/
def answeredOf : Instr → BusReq → Byte → State → State
  | .init _ _ _ _ => initAnswered
  | .pattern _ => patternAnswered
  | .write len => writeAnswered len
  | .deinit | .clear | .home | .setcur _ _ | .shift _ _ | .textdir _ | .autoscroll _ | .display _ | .cursor _
  | .blink _ | .blsup | .blset _ | .blget => State.latchAnswer
  | .lcdClear | .lcdHome | .lcdEntryMode _ _ | .lcdDisplayControl _ _ _ | .lcdShift _ _
  | .lcdFunctionSet _ _ _ | .lcdSetCgram _ | .lcdSetDdram _ | .lcdNibbleResync | .lcdNibbleModefix
  | .lcdData _ => State.dropAnswer

/-- What the running command does with an answer, by the word the block holds. -/
def answeredOfWord (w : Word) : BusReq → Byte → State → State :=
  match decodeCommand w with
  | .ok i => answeredOf i
  | .error _ => State.dropAnswer

/-- The meaning of an emitted form: one exchange on the bus port (R68), whose answer completes the running command's
micro-operation (R27). The request must be the one that stands on the port, or the port must be free and no command
running, whose answer is then dropped; else nothing happens (R70). While the adapter has not answered the request stays on
the port (R237). -/
def exchange (r : BusReq) (s : State) : State :=
  if s.breq = some r ∨ (s.breq = none ∧ s.treq = none ∧ s.busy = false) then
    (s.transfer r (if s.busy then answeredOfWord s.ir r else State.dropAnswer r)).getD (s.drive r)
  else s

end Sys2Proof.Machine
end

