-- ==== Sys2Proof/Machine/LcdForms.lean ====
section
/-! DEFINITION. The emitted forms (spec 30_encoding.md R88 to R97). What the block does with one is an exchange on the bus
port (20_memory.md R68): the request is issued once and answered once with a count, and the answer completes the
micro-operation of the running command that made the request (10_state.md R27). The form's effect on the external
controller is the controller's and is not tracked (R7, R37; log entry 10). -/

namespace Sys2Proof.Machine

/-- Clear display (R94). -/
def execLcdClear (s : State) : Host.Outcome State Fault Refusal :=
  .next (exchange (.instr 0x01) s)

/-- Return home (R95). -/
def execLcdHome (s : State) : Host.Outcome State Fault Refusal :=
  .next (exchange (.instr 0x02) s)

/-- Entry-mode set (R88). -/
def execLcdEntryMode (i sc : Bool) (s : State) : Host.Outcome State Fault Refusal :=
  .next (exchange (.instr (entryModeByte i sc)) s)

/-- Display control (R89). -/
def execLcdDisplayControl (d c b : Bool) (s : State) : Host.Outcome State Fault Refusal :=
  .next (exchange (.instr (displayControlByte d c b)) s)

/-- Cursor/display shift (R90). -/
def execLcdShift (sc r : Bool) (s : State) : Host.Outcome State Fault Refusal :=
  .next (exchange (.instr (shiftByte sc r)) s)

/-- Function set (R91). -/
def execLcdFunctionSet (l n f : Bool) (s : State) : Host.Outcome State Fault Refusal :=
  .next (exchange (.instr (functionSetByte l n f)) s)

/-- Set CGRAM address (R93). -/
def execLcdSetCgram (slot : BitVec 3) (s : State) : Host.Outcome State Fault Refusal :=
  .next (exchange (.instr (cgramByte slot)) s)

/-- Set DDRAM address (R92). -/
def execLcdSetDdram (addr : BitVec 7) (s : State) : Host.Outcome State Fault Refusal :=
  .next (exchange (.instr (ddramByte addr)) s)

/-- The resynchronization nibble (R96). -/
def execLcdNibbleResync (s : State) : Host.Outcome State Fault Refusal :=
  .next (exchange (.nibble Config.nibbleResync) s)

/-- The mode-fix nibble (R96). -/
def execLcdNibbleModefix (s : State) : Host.Outcome State Fault Refusal :=
  .next (exchange (.nibble Config.nibbleModefix) s)

/-- A data byte (R97), sent unchanged. -/
def execLcdData (b : BitVec 8) (s : State) : Host.Outcome State Fault Refusal :=
  .next (exchange (.data b) s)

end Sys2Proof.Machine
end

