-- ==== Sys2Proof/Machine/RegisterRmw.lean ====
section
/-! DEFINITION. The control-register read-modify-write commands TEXTDIR, AUTOSCROLL, DISPLAY, CURSOR and BLINK
(spec 42_register_rmw.md): the common shape of R160 for each of the two registers, then the five commands. -/

namespace Sys2Proof.Machine

/-- The steps of R160 with X = `EM`, BASE = 0x04: the register first, then its whole image, kept whatever the count (R161). -/
def microEntryMode (mask : Byte) (b : Bool) (s : State) : Option State :=
  match s.upc with
  | 1 => some (s.writeEm (rmw s.readEm mask b)).advance
  | 2 => s.request (.instr (entryModeOp s.readEm))
  | 3 => some (s.respond .ok (countVal s.cnt))
  | _ => none

/-- The steps of R160 with X = `DC`, BASE = 0x08. -/
def microDisplayControl (mask : Byte) (b : Bool) (s : State) : Option State :=
  match s.upc with
  | 1 => some (s.writeDc (rmw s.readDc mask b)).advance
  | 2 => s.request (.instr (displayControlOp s.readDc))
  | 3 => some (s.respond .ok (countVal s.cnt))
  | _ => none

/-- The steps of TEXTDIR (R162): the operand is copied into `EM.ID` (R163). -/
def microTextdir (d : TextDir) : State → Option State := microEntryMode maskId d.bit
/-- The steps of AUTOSCROLL (R164). -/
def microAutoscroll (b : Bool) : State → Option State := microEntryMode maskS b
/-- The steps of DISPLAY (R166). -/
def microDisplay (b : Bool) : State → Option State := microDisplayControl maskD b
/-- The steps of CURSOR (R168). -/
def microCursor (b : Bool) : State → Option State := microDisplayControl maskC b
/-- The steps of BLINK (R170). -/
def microBlink (b : Bool) : State → Option State := microDisplayControl maskB b

/-- TEXTDIR (R162). -/
def execTextdir (d : TextDir) (s : State) : Host.Outcome State Fault Refusal :=
  .next (runCommand (.textdir d) (microTextdir d) State.latchAnswer s)

/-- AUTOSCROLL (R164). -/
def execAutoscroll (b : Bool) (s : State) : Host.Outcome State Fault Refusal :=
  .next (runCommand (.autoscroll b) (microAutoscroll b) State.latchAnswer s)

/-- DISPLAY (R166). -/
def execDisplay (b : Bool) (s : State) : Host.Outcome State Fault Refusal :=
  .next (runCommand (.display b) (microDisplay b) State.latchAnswer s)

/-- CURSOR (R168). -/
def execCursor (b : Bool) (s : State) : Host.Outcome State Fault Refusal :=
  .next (runCommand (.cursor b) (microCursor b) State.latchAnswer s)

/-- BLINK (R170). -/
def execBlink (b : Bool) (s : State) : Host.Outcome State Fault Refusal :=
  .next (runCommand (.blink b) (microBlink b) State.latchAnswer s)

end Sys2Proof.Machine
end

