-- ==== Sys2Proof/Machine/Dispatch.lean ====
section
/-! DEFINITION. The meaning of every instruction, one arm per constructor. -/

namespace Sys2Proof.Machine

def exec (i : Instr) (s : State) : Host.Outcome State Fault Refusal :=
  match i with
  | .init w h p m => Sys2Proof.Machine.execInit w h p m s
  | .deinit => Sys2Proof.Machine.execDeinit s
  | .clear => Sys2Proof.Machine.execClear s
  | .home => Sys2Proof.Machine.execHome s
  | .setcur col line => Sys2Proof.Machine.execSetcur col line s
  | .shift r co => Sys2Proof.Machine.execShift r co s
  | .textdir d => Sys2Proof.Machine.execTextdir d s
  | .autoscroll b => Sys2Proof.Machine.execAutoscroll b s
  | .display b => Sys2Proof.Machine.execDisplay b s
  | .cursor b => Sys2Proof.Machine.execCursor b s
  | .blink b => Sys2Proof.Machine.execBlink b s
  | .pattern slot => Sys2Proof.Machine.execPattern slot s
  | .write len => Sys2Proof.Machine.execWrite len s
  | .blsup => Sys2Proof.Machine.execBlsup s
  | .blset b => Sys2Proof.Machine.execBlset b s
  | .blget => Sys2Proof.Machine.execBlget s
  | .lcdClear => Sys2Proof.Machine.execLcdClear s
  | .lcdHome => Sys2Proof.Machine.execLcdHome s
  | .lcdEntryMode a sc => Sys2Proof.Machine.execLcdEntryMode a sc s
  | .lcdDisplayControl d c b => Sys2Proof.Machine.execLcdDisplayControl d c b s
  | .lcdShift sc r => Sys2Proof.Machine.execLcdShift sc r s
  | .lcdFunctionSet l n f => Sys2Proof.Machine.execLcdFunctionSet l n f s
  | .lcdSetCgram slot => Sys2Proof.Machine.execLcdSetCgram slot s
  | .lcdSetDdram addr => Sys2Proof.Machine.execLcdSetDdram addr s
  | .lcdNibbleResync => Sys2Proof.Machine.execLcdNibbleResync s
  | .lcdNibbleModefix => Sys2Proof.Machine.execLcdNibbleModefix s
  | .lcdData b => Sys2Proof.Machine.execLcdData b s

end Sys2Proof.Machine
end

