-- ==== Sys2Proof/Machine/Transaction.lean ====
section
/-! DEFINITION. The block one transaction at a time, as spec 30_encoding.md R81 and D1 count its steps: one accepted
command word, one payload byte, one bus answer, one timer done, or one internal micro-operation. `step` runs a command
over many of these at once (log entry 1). -/

namespace Sys2Proof.Machine

/-- The micro-program a command code selects, fixed in the hardware (R74). The emitted forms have none. -/
def microProgram : Instr → State → Option State
  | .init w h p m => microInit w h p m
  | .deinit => microDeinit
  | .clear => microClear
  | .home => microHome
  | .setcur col line => microSetcur col line
  | .shift r co => microShift r co
  | .textdir d => microTextdir d
  | .autoscroll b => microAutoscroll b
  | .display b => microDisplay b
  | .cursor b => microCursor b
  | .blink b => microBlink b
  | .pattern slot => microPattern slot
  | .write len => microWrite len
  | .blsup => microBlsup
  | .blset b => microBlset b
  | .blget => microBlget
  | .lcdClear | .lcdHome | .lcdEntryMode _ _ | .lcdDisplayControl _ _ _ | .lcdShift _ _
  | .lcdFunctionSet _ _ _ | .lcdSetCgram _ | .lcdSetDdram _ | .lcdNibbleResync | .lcdNibbleModefix
  | .lcdData _ => fun _ => none

/-- What the running command does next, by the word the block holds: its micro-program, or the draining of a word that
decodes to no command. -/
def bodyOfWord (w : Word) : State → Option State :=
  match decodeCommand w with
  | .ok i => commandBody i (microProgram i)
  | .error _ => State.drain .errIllegal (paylen w)

/-- `cmd_ready` (R24, R80). -/
def State.cmdReady (s : State) : Bool := !s.busy

/-- Take the next command word from the command port, where the block is ready and one is presented (R24, R80). -/
def State.takeCommand (s : State) : Option State :=
  match s.cmdIn with
  | [] => none
  | w :: ws => if s.cmdReady then some ({ s with cmdIn := ws }.accept w) else none

/-- One transaction of the block (R20, R81); the state itself where nothing can happen yet (R237, R241). -/
def transaction (s : State) : State :=
  if s.rst then s.hardReset
  else if s.busy then (tick (bodyOfWord s.ir) (answeredOfWord s.ir) s).getD s
  else
    match s.breq with
    | some r => (s.transfer r (State.dropAnswer r)).getD s
    | none => s.takeCommand.getD s

/-- `n` transactions. -/
def transactions : Nat → State → State
  | 0, s => s
  | n + 1, s => transactions n (transaction s)

end Sys2Proof.Machine
end

