-- ==== Sys2Proof/Machine/Step.lean ====
section
/-! DEFINITION. One step of the machine. The block fetches nothing from memory (spec 20_memory.md R74): its instructions
come from the command port (R83), and the emitted forms stand on the bus request port (R82). -/

namespace Sys2Proof.Machine

/-- One step: hardware reset where `rst` is asserted (R250); else the emitted form that stands on the bus port (R88 to R97);
else the command that is running goes on (R20); else a request left on the bus port is exchanged (R68; no run leaves one); else
the next word of the command port is accepted and run (R24, R101, R102), and where there is none the block is idle
(R241). -/
def step (s : State) : Host.Outcome State Fault Refusal :=
  if s.rst then .next s.hardReset
  else
    match s.breq.map decodeRequest with
    | some (.ok i) => exec i s
    | _ =>
      if s.busy then
        match decodeCommand s.ir with
        | .ok i => exec i s
        | .error _ => .next (runIllegal s.ir s)
      else
        match s.breq, s.cmdIn with
        | some r, _ => .next ((s.transfer r (State.dropAnswer r)).getD s)
        | none, [] => .next s
        | none, w :: ws =>
          match decodeCommand w with
          | .ok i => exec i { s with cmdIn := ws }
          | .error _ => .next (runIllegal w ({ s with cmdIn := ws }.accept w))

/-- `s` with the instruction of the bits `w` placed where `step` takes its next one: a command word is presented on the
command port of an idle block, an emitted form stands on the bus request port. `rst` is released, and no other request
or command is in the way. -/
def State.withFetchWord (s : State) (nbits w : Nat) : State :=
  match tableEncoding nbits (w % 2 ^ nbits) with
  | .command cw =>
    { s with rst := false, busy := false, breq := none, treq := none, cmdIn := cw :: s.cmdIn }
  | .request r => { s with rst := false, busy := false, breq := some r, treq := none }

end Sys2Proof.Machine
end

