-- ==== Sys2Proof/Machine/Asm.lean ====
section
/-! DEFINITION. The assembler syntax of the command set (spec 30_encoding.md R104), over lists of characters: one command a
line, numbers in decimal or `0x` hexadecimal, `;` starts a comment. The words are R104's own formulas, apart from the
encoder of Decode.lean, so that the two can be held against each other. No instruction's meaning uses this file. -/

namespace Sys2Proof.Machine

/-- The word column of R104's table. The emitted forms are no commands. -/
def asmWord : Instr → Option Word
  | .init w h p m => some (0x01 ||| w.setWidth 32 <<< 8 ||| h.setWidth 32 <<< 16 |||
      (BitVec.ofBool p.bit).setWidth 32 <<< 19 ||| (BitVec.ofBool m.bit).setWidth 32 <<< 20)
  | .deinit => some 0x00000002
  | .clear => some 0x00000003
  | .home => some 0x00000004
  | .setcur col line => some (0x05 ||| col.setWidth 32 <<< 8 ||| line.setWidth 32 <<< 16)
  | .shift r co => some (0x06 ||| (BitVec.ofBool r.bit).setWidth 32 <<< 8 ||| (BitVec.ofBool co).setWidth 32 <<< 9)
  | .textdir d => some (0x07 ||| (BitVec.ofBool d.bit).setWidth 32 <<< 8)
  | .autoscroll b => some (0x08 ||| (BitVec.ofBool b).setWidth 32 <<< 8)
  | .display b => some (0x09 ||| (BitVec.ofBool b).setWidth 32 <<< 8)
  | .cursor b => some (0x0A ||| (BitVec.ofBool b).setWidth 32 <<< 8)
  | .blink b => some (0x0B ||| (BitVec.ofBool b).setWidth 32 <<< 8)
  | .pattern slot => some (0x0C ||| slot.setWidth 32 <<< 8)
  | .write n => some (0x0D ||| n.setWidth 32 <<< 16)
  | .blsup => some 0x0000000E
  | .blset b => some (0x0F ||| (BitVec.ofBool b).setWidth 32 <<< 8)
  | .blget => some 0x00000010
  | .lcdClear | .lcdHome | .lcdEntryMode _ _ | .lcdDisplayControl _ _ _ | .lcdShift _ _
  | .lcdFunctionSet _ _ _ | .lcdSetCgram _ | .lcdSetDdram _ | .lcdNibbleResync | .lcdNibbleModefix
  | .lcdData _ => none

/-- The value of a digit in a base, where it has one. -/
def digitValue (base : Nat) (c : Char) : Option Nat :=
  let n := c.toNat
  let v := if 48 ≤ n && n ≤ 57 then n - 48 else if 65 ≤ n && n ≤ 70 then n - 55 else if 97 ≤ n && n ≤ 102 then n - 87 else base
  if v < base then some v else none

/-- The number some digits write, most significant first. -/
def digitsValue (base : Nat) (acc : Nat) : List Char → Option Nat
  | [] => some acc
  | c :: cs =>
    match digitValue base c with
    | some v => digitsValue base (base * acc + v) cs
    | none => none

/-- A number: `0x` and hexadecimal digits, or decimal digits. -/
def numberOf : List Char → Option Nat
  | [] => none
  | '0' :: 'x' :: c :: cs => digitsValue 16 0 (c :: cs)
  | c :: cs => digitsValue 10 0 (c :: cs)

/-- A number that fits an operand field of `n` bits. -/
def fieldOf (n : Nat) (cs : List Char) : Option (BitVec n) :=
  match numberOf cs with
  | some v => if v < 2 ^ n then some (BitVec.ofNat n v) else none
  | none => none

/-- Whether a character separates tokens. -/
def isBlank (c : Char) : Bool := c == ' ' || c == '\t'

/-- A token without the blanks around it. -/
def trimBlanks (cs : List Char) : List Char :=
  ((cs.dropWhile isBlank).reverse.dropWhile isBlank).reverse

/-- A line up to its comment; a `;` between double quotes starts none. -/
def stripComment (quoted : Bool) : List Char → List Char
  | [] => []
  | c :: cs =>
    if c == ';' && !quoted then []
    else c :: stripComment (if c == '"' then !quoted else quoted) cs

/-- The operands of a line, apart at its commas. -/
def splitCommas (acc : List Char) : List Char → List (List Char)
  | [] => [trimBlanks acc.reverse]
  | c :: cs => if c == ',' then trimBlanks acc.reverse :: splitCommas [] cs else splitCommas (c :: acc) cs

/-- `ON` or `OFF`. -/
def onOff (cs : List Char) : Option Bool :=
  if cs = ['O', 'N'] then some true else if cs = ['O', 'F', 'F'] then some false else none

/-- `F5x8` or `F5x10`. -/
def fontOf (cs : List Char) : Option Font :=
  if cs = ['F', '5', 'x', '8'] then some .rows8
  else if cs = ['F', '5', 'x', '1', '0'] then some .rows10
  else none

/-- `M4` or `M8`. -/
def modeOf (cs : List Char) : Option TransferMode :=
  if cs = ['M', '4'] then some .fourBit else if cs = ['M', '8'] then some .eightBit else none

/-- `L` or `R`. -/
def shiftDirOf (cs : List Char) : Option ShiftDir :=
  if cs = ['L'] then some .left else if cs = ['R'] then some .right else none

/-- `CUR` or `DISP`, as cursor_only. -/
def cursorOnlyOf (cs : List Char) : Option Bool :=
  if cs = ['C', 'U', 'R'] then some true else if cs = ['D', 'I', 'S', 'P'] then some false else none

/-- `LTR` or `RTL`. -/
def textDirOf (cs : List Char) : Option TextDir :=
  if cs = ['L', 'T', 'R'] then some .leftToRight else if cs = ['R', 'T', 'L'] then some .rightToLeft else none

/-- The bytes of a quoted text (ASCII), or of a list of numbers; no operand is no byte. -/
def payloadOf (rest : List Char) : Option (List Byte) :=
  match rest with
  | [] => some []
  | '"' :: cs =>
    match cs.reverse with
    | '"' :: text => text.reverse.mapM fun c => if c.toNat < 128 then some (BitVec.ofNat 8 c.toNat) else none
    | _ => none
  | _ => (splitCommas [] rest).mapM (fieldOf 8)

/-- A command with its operands, and its payload bytes. -/
def parseCommand (name rest : List Char) : Option (Instr × List Byte) :=
  let plain (i : Instr) : Option (Instr × List Byte) := if rest = [] then some (i, []) else none
  let flag (f : Bool → Instr) : Option (Instr × List Byte) := (onOff rest).map fun b => (f b, [])
  if name = ['I', 'N', 'I', 'T'] then
    match splitCommas [] rest with
    | [w, h, p, m] => do pure (.init (← fieldOf 8 w) (← fieldOf 3 h) (← fontOf p) (← modeOf m), [])
    | _ => none
  else if name = ['D', 'E', 'I', 'N', 'I', 'T'] then plain .deinit
  else if name = ['C', 'L', 'E', 'A', 'R'] then plain .clear
  else if name = ['H', 'O', 'M', 'E'] then plain .home
  else if name = ['S', 'E', 'T', 'C', 'U', 'R'] then
    match splitCommas [] rest with
    | [col, line] => do pure (.setcur (← fieldOf 8 col) (← fieldOf 8 line), [])
    | _ => none
  else if name = ['S', 'H', 'I', 'F', 'T'] then
    match splitCommas [] rest with
    | [r, co] => do pure (.shift (← shiftDirOf r) (← cursorOnlyOf co), [])
    | _ => none
  else if name = ['T', 'E', 'X', 'T', 'D', 'I', 'R'] then (textDirOf rest).map fun d => (.textdir d, [])
  else if name = ['A', 'U', 'T', 'O', 'S', 'C', 'R', 'O', 'L', 'L'] then flag .autoscroll
  else if name = ['D', 'I', 'S', 'P', 'L', 'A', 'Y'] then flag .display
  else if name = ['C', 'U', 'R', 'S', 'O', 'R'] then flag .cursor
  else if name = ['B', 'L', 'I', 'N', 'K'] then flag .blink
  else if name = ['P', 'A', 'T', 'T', 'E', 'R', 'N'] then
    match splitCommas [] rest with
    | slot :: rows => do
      let bytes ← rows.mapM (fieldOf 8)
      if bytes.length = 8 then pure (.pattern (← fieldOf 3 slot), bytes) else none
    | [] => none
  else if name = ['W', 'R', 'I', 'T', 'E'] then do
    let bytes ← payloadOf rest
    if bytes.length < 2 ^ 16 then pure (.write (BitVec.ofNat 16 bytes.length), bytes) else none
  else if name = ['B', 'L', 'S', 'U', 'P'] then plain .blsup
  else if name = ['B', 'L', 'S', 'E', 'T'] then flag .blset
  else if name = ['B', 'L', 'G', 'E', 'T'] then plain .blget
  else none

/-- The command word and the payload bytes of one line of assembler text (R104); none where it is no command. -/
def assemble (line : List Char) : Option (Word × List Byte) :=
  let text := trimBlanks (stripComment false line)
  let name := text.takeWhile (fun c => !isBlank c)
  let rest := trimBlanks (text.dropWhile (fun c => !isBlank c))
  match parseCommand name rest with
  | some (i, bytes) => (asmWord i).map fun w => (w, bytes)
  | none => none

/-- One hexadecimal digit, in capitals. -/
def hexDigit (n : BitVec 4) : Char :=
  if n.toNat < 10 then Char.ofNat (48 + n.toNat) else Char.ofNat (55 + n.toNat)

/-- A byte as `0xNN`. -/
def hexByte (b : Byte) : List Char := ['0', 'x', hexDigit (b.extractLsb' 4 4), hexDigit (b.extractLsb' 0 4)]

/-- How R104 writes an external request that carries an emitted form, or a wait; the control requests have no such form. -/
def traceText : Event → Option (List Char)
  | .bus (.instr op) _ => some ('I' :: ':' :: hexByte op)
  | .bus (.nibble n) _ => some ['N', ':', '0', 'x', hexDigit n]
  | .bus (.data b) _ => some ('D' :: ':' :: hexByte b)
  | .wait t => some ('W' :: ':' :: Nat.toDigits 10 t.toNat)
  | .bus .init _ | .bus (.negotiate _) _ | .bus .blSupported _ | .bus (.blSet _) _ | .bus .blGet _ => none
  | .busCut _ | .waitCut _ => none

end Sys2Proof.Machine
end

