-- ==== Sys2Proof/Safety.lean ====
section
/-! DEFINITION. What a safe run is, in the terms the statements use: the idle block, the invariants of the registers
(spec 10_state.md R34, R38), the invariant of a running command, the closed set of requests (30_encoding.md R99), the legal
transitions of `PHASE` (R23), and the traces the rules write out for INIT, PATTERN and WRITE. -/

namespace Sys2Proof.Machine

/-! ### States -/

/-- Everything that lives only while a command runs is at rest (R22, R33). -/
def State.Quiet (s : State) : Prop :=
  s.upc = 0 ∧ s.k = 0 ∧ s.nok = 0 ∧ s.stop = false ∧ s.ir = 0 ∧ s.cnt = 0 ∧
    s.breq = none ∧ s.treq = none

/-- No command runs and nothing is outstanding: the block waits for a command word. -/
def State.Idle (s : State) : Prop := s.busy = false ∧ s.Quiet

/-- An idle block in READY: where the fourteen commands beside INIT and DEINIT are admitted (R224). -/
def State.ReadyIdle (s : State) : Prop := s.Idle ∧ s.phase = .ready

/-- `LINES` is a legal line count (R30). -/
def State.LegalLines (s : State) : Prop := 1 ≤ s.lines.toNat ∧ s.lines.toNat ≤ 4

/-- The registers that persist between commands are the same in both states (R22). -/
def State.SameRegisters (s t : State) : Prop :=
  t.phase = s.phase ∧ t.tm = s.tm ∧ t.fs = s.fs ∧ t.dc = s.dc ∧ t.em = s.em ∧ t.lines = s.lines ∧ t.lat = s.lat

/-! ### Invariants -/

/-- The hardwired bits of the three control registers are 0 (R26, R28, R29, R34; R38 (f)). -/
def State.HardwiredZero (s : State) : Prop :=
  s.fs &&& 0xE3 = 0 ∧ s.dc &&& 0xF8 = 0 ∧ s.em &&& 0xFC = 0

/-- The clauses (a) to (e) of R38: `LAT` is one of the two parameter vectors, `FS.DL` is `TM`, `FS.N` is set exactly for two
lines and more, `FS.F` only for one line, and `LINES` is 1..4. -/
def State.Configured (s : State) : Prop :=
  (s.lat = Config.lineBaseNarrow ∨ s.lat = Config.lineBaseWide) ∧
    s.fs.getLsbD 4 = s.tm.bit ∧
    (s.fs.getLsbD 3 = true ↔ 2 ≤ s.lines.toNat) ∧
    (s.fs.getLsbD 2 = true → s.lines = 1) ∧
    s.LegalLines

/-- What INIT has done when `UPC` has reached a step (R120): `FS` after s3, `LINES` and `LAT` after s4; a bus
request is one of s1 and s2, or of s6 and later and then no negotiation; and no wait is requested before s5. -/
def State.InitProgress (w : BitVec 8) (h : BitVec 3) (p : Font) (s : State) : Prop :=
  (4 ≤ s.upc → s.fs = deriveFs s.tm h p) ∧
    (5 ≤ s.upc → s.lines = h ∧ s.lat = lineTableOf (widthClass w)) ∧
    (∀ r, s.breq = some r → s.upc ≤ 2 ∨ (5 ≤ s.upc ∧ ∀ m, r ≠ .negotiate m)) ∧
    (s.treq.isSome = true → 5 ≤ s.upc)

/-- The progress of the command that runs: only INIT leaves registers for a later step of its own to rely on. -/
def State.Progress (s : State) : Instr → Prop
  | .init w h p _ => s.InitProgress w h p
  | .deinit | .clear | .home | .setcur _ _ | .shift _ _ | .textdir _ | .autoscroll _ | .display _
  | .cursor _ | .blink _ | .pattern _ | .write _ | .blsup | .blset _ | .blget => True
  | .lcdClear | .lcdHome | .lcdEntryMode _ _ | .lcdDisplayControl _ _ _ | .lcdShift _ _
  | .lcdFunctionSet _ _ _ | .lcdSetCgram _ | .lcdSetDdram _ | .lcdNibbleResync | .lcdNibbleModefix
  | .lcdData _ => False

/-- A command past its admission is a legal one, admitted in the phase the block is still in (R224). -/
def State.RunsLegally (s : State) : Prop :=
  (s.upc = 0 → s.breq = none ∧ s.treq = none) ∧
    (s.upc ≠ 0 → ∃ i, decodeCommand s.ir = .ok i ∧ admitted i s.phase = true ∧ s.Progress i)

/-- The invariant of the machine: hardwired bits, the READY configuration, at most one outstanding request (R70), a
quiet block between commands, and a legal running command. -/
def State.Inv (s : State) : Prop :=
  s.HardwiredZero ∧
    (s.phase = .ready → s.Configured) ∧
    (s.breq = none ∨ s.treq = none) ∧
    (s.busy = false → s.Quiet) ∧
    (s.busy = true → s.RunsLegally)

/-! ### The closed set of emissions -/

/-- The bytes the block emits by `BusInstr`: the values listed in R88 to R95 (R99). -/
def emittedByte (b : Byte) : Bool :=
  b == 0x01 || b == 0x02 ||
    (0x04 ≤ b.toNat && b.toNat ≤ 0x07) || (0x08 ≤ b.toNat && b.toNat ≤ 0x0F) ||
    [0x10, 0x14, 0x18, 0x1C].contains b.toNat ||
    [0x20, 0x24, 0x28, 0x30, 0x34, 0x38].contains b.toNat ||
    [0x40, 0x48, 0x50, 0x58, 0x60, 0x68, 0x70, 0x78].contains b.toNat ||
    0x80 ≤ b.toNat

/-- A request R99 allows: instruction bytes and nibbles from the closed set; data bytes and control requests freely. -/
def emittedRequest : BusReq → Bool
  | .instr op => emittedByte op
  | .nibble n => n == 0x3 || n == 0x2
  | .init | .negotiate _ | .data _ | .blSupported | .blSet _ | .blGet => true

/-- A wait the block requests: one of the four lengths of R82 and R265. -/
def emittedWait (t : Half) : Bool := [50000, 4500, 150, 2000].contains t.toNat

/-- A trace entry within the closed set. -/
def emittedEvent : Event → Bool
  | .bus r _ | .busCut r => emittedRequest r
  | .wait t | .waitCut t => emittedWait t

/-- Everything the block has requested, and what it requests now, is within the closed set (R99, R265). -/
def State.EmitsClosed (s : State) : Prop :=
  (∀ e ∈ s.trace, emittedEvent e = true) ∧
    (∀ r, s.breq = some r → emittedRequest r = true) ∧
    (∀ t, s.treq = some t → emittedWait t = true)

/-! ### Register commands -/

/-- A command that mutates `EM`, as its mask and its operand bit (R160, R162, R164). -/
def entryModeCommand : Instr → Option (Byte × Bool)
  | .textdir d => some (0x02, d.bit)
  | .autoscroll b => some (0x01, b)
  | .init _ _ _ _ | .deinit | .clear | .home | .setcur _ _ | .shift _ _ | .display _ | .cursor _ | .blink _
  | .pattern _ | .write _ | .blsup | .blset _ | .blget | .lcdClear | .lcdHome | .lcdEntryMode _ _
  | .lcdDisplayControl _ _ _ | .lcdShift _ _ | .lcdFunctionSet _ _ _ | .lcdSetCgram _ | .lcdSetDdram _
  | .lcdNibbleResync | .lcdNibbleModefix | .lcdData _ => none

/-- A command that mutates `DC`, as its mask and its operand bit (R160, R166, R168, R170). -/
def displayControlCommand : Instr → Option (Byte × Bool)
  | .display b => some (0x04, b)
  | .cursor b => some (0x02, b)
  | .blink b => some (0x01, b)
  | .init _ _ _ _ | .deinit | .clear | .home | .setcur _ _ | .shift _ _ | .textdir _ | .autoscroll _
  | .pattern _ | .write _ | .blsup | .blset _ | .blget | .lcdClear | .lcdHome | .lcdEntryMode _ _
  | .lcdDisplayControl _ _ _ | .lcdShift _ _ | .lcdFunctionSet _ _ _ | .lcdSetCgram _ | .lcdSetDdram _
  | .lcdNibbleResync | .lcdNibbleModefix | .lcdData _ => none

/-! ### Transitions of the phase -/

/-- The transitions of `PHASE` that R23 lists, hardware reset apart. -/
def legalPhaseStep : Phase → Phase → Prop
  | .uninit, .ready => True
  | .uninit, .failed => True
  | .uninit, .released => True
  | .ready, .released => True
  | .failed, .released => True
  | p, q => p = q

/-! ### Traces -/

/-- The last part of INIT's trace, steps s13 to s19, in both modes (R129), with the counts answered. -/
def initTail (fs : Byte) (c1 c2 c3 c4 : Byte) : List Event :=
  [.bus (.instr (0x20 ||| fs)) c1, .bus (.instr 0x0C) c2, .bus (.instr 0x01) c3, .wait 2000, .bus (.instr 0x06) c4]

/-- INIT's trace after the two control requests where the adapter answers 4-bit (R126, R128, R129). -/
def initTrace4 (fs : Byte) (n1 n2 n3 n4 c1 c2 c3 c4 : Byte) : List Event :=
  [.wait 50000, .bus (.nibble 0x3) n1, .wait 4500, .bus (.nibble 0x3) n2, .wait 4500, .bus (.nibble 0x3) n3, .wait 150,
    .bus (.nibble 0x2) n4] ++ initTail fs c1 c2 c3 c4

/-- INIT's trace after the two control requests where the adapter answers 8-bit (R127, R128, R129). -/
def initTrace8 (fs : Byte) (n1 n2 n3 c1 c2 c3 c4 : Byte) : List Event :=
  [.wait 50000, .bus (.instr (0x20 ||| fs)) n1, .wait 4500, .bus (.instr (0x20 ||| fs)) n2, .wait 4500,
    .bus (.instr (0x20 ||| fs)) n3, .wait 150] ++ initTail fs c1 c2 c3 c4

/-- Data bytes with the counts the adapter answers, one count a byte. -/
def dataEvents (bytes counts : List Byte) : List Event :=
  List.zipWith (fun b c => .bus (.data b) c) bytes counts

/-- How many of some transfers succeeded: those with a count other than 0 (R186). -/
def successes (counts : List Byte) : Nat := counts.countP (fun c => c != 0)

/-- How many bytes of a payload WRITE puts on the bus: up to and with the first whose count is 0 (R187). -/
def bytesSent (len : Nat) (counts : List Byte) : Nat :=
  min len ((counts.take len).findIdx (fun c => c == 0) + 1)

/-- How many of them succeeded: those before the first failure (R185). -/
def bytesWritten (len : Nat) (counts : List Byte) : Nat :=
  (counts.take len).findIdx (fun c => c == 0)

end Sys2Proof.Machine
end

