-- ==== Sys2Proof/Certificates/Slice0/Obligations.lean ====
section
/-! DEFINITION. The statements for the provers. Decisions of the spec's own (D1 to D32 of spec 92_eei_decisions.md) that a
statement rests on are named in its docstring; where it rests on a choice of the model, the docstring names the log
entry. Throughout, `exec` of a command and a step run all the transactions their inputs allow at once, which is the model's
choice (log entry 1). -/

open Sys2Proof Sys2Proof.Machine

/-! ### Encodings -/

/-- R101 with R83 to R86 (D2): decoding the word of a well-formed command gives the command back, for every operand value. -/
def Obligations.CommandEncodingRoundTrip : Prop :=
  ∀ i : Instr, i.isCommand = true → i.wellFormed = true → decodeCommand (commandWord i) = .ok i

/-- Each legal command word has one spelling: a word that decodes to a command is that command's word, and the command is
well formed. -/
def Obligations.CommandWordIsUnique : Prop :=
  ∀ (w : Word) (i : Instr), decodeCommand w = .ok i →
    commandWord i = w ∧ i.isCommand = true ∧ i.wellFormed = true

/-- R100: exactly the words of its cases (a), (b) and (c) are illegal, each for its own reason. -/
def Obligations.IllegalWordsAreExactlyR100 : Prop :=
  ∀ w : Word,
    (decodeCommand w = .error .reservedOpcode ↔ opcode w = 0 ∨ 0x11 ≤ (opcode w).toNat) ∧
    (decodeCommand w = .error .mustBeZero ↔
      ∃ row, commandRow (opcode w).toNat w = some row ∧ w &&& row.mask ≠ row.pattern) ∧
    (decodeCommand w = .error .lineCount ↔
      w &&& 0xFFE000FF = 0x01 ∧ (field w 16 3 = 0 ∨ 5 ≤ (field w 16 3).toNat)) ∧
    decodeCommand w ≠ .error .notAnLcdForm ∧ decodeCommand w ≠ .error .controlRequest

/-- R88 to R97: decoding the bus request of an emitted form gives the form back, and only an emitted form has one. -/
def Obligations.EmittedFormRoundTrip : Prop :=
  ∀ (i : Instr) (r : BusReq), (requestOf i = some r ↔ decodeRequest r = .ok i ∧ i.isCommand = false)

/-- The byte patterns of R88, R89, R91, R92, R93, R94 and R95: each emitted instruction is its base with its bits. -/
def Obligations.EmittedInstructionBytes : Prop :=
  requestOf .lcdClear = some (.instr 0x01) ∧
  requestOf .lcdHome = some (.instr 0x02) ∧
  (∀ i s, requestOf (.lcdEntryMode i s) =
    some (.instr (0x04 ||| (if i then 0x02 else 0) ||| (if s then 0x01 else 0)))) ∧
  (∀ d c b, requestOf (.lcdDisplayControl d c b) =
    some (.instr (0x08 ||| (if d then 0x04 else 0) ||| (if c then 0x02 else 0) ||| (if b then 0x01 else 0)))) ∧
  (∀ l n f, requestOf (.lcdFunctionSet l n f) =
    some (.instr (0x20 ||| (if l then 0x10 else 0) ||| (if n then 0x08 else 0) ||| (if f then 0x04 else 0)))) ∧
  (∀ slot : BitVec 3, requestOf (.lcdSetCgram slot) = some (.instr (0x40 ||| slot.setWidth 8 <<< 3))) ∧
  (∀ addr : BitVec 7, requestOf (.lcdSetDdram addr) = some (.instr (0x80 ||| addr.setWidth 8)))

/-- R90 and R96 (the polarity and the nibble values are the spec's general knowledge, D15 and D6): the shift byte, the two
nibbles, and a data byte as it is (R97). -/
def Obligations.ShiftNibblesAndData : Prop :=
  (∀ s r, requestOf (.lcdShift s r) =
    some (.instr (0x10 ||| (if s then 0x08 else 0) ||| (if r then 0x04 else 0)))) ∧
  requestOf .lcdNibbleResync = some (.nibble 0b0011) ∧
  requestOf .lcdNibbleModefix = some (.nibble 0b0010) ∧
  (∀ b, requestOf (.lcdData b) = some (.data b))

/-- Words written out from the spec (95_test_vectors.md) decode to the instructions they stand for. -/
def Obligations.KnownWordsDecode : Prop :=
  decodeCommand 0x00121001 = .ok (.init 16 2 .rows8 .eightBit) ∧
  decodeCommand 0x00010505 = .ok (.setcur 5 1) ∧
  decodeCommand 0x00000306 = .ok (.shift .right true) ∧
  decodeCommand 0x00000107 = .ok (.textdir .leftToRight) ∧
  decodeCommand 0x0000070C = .ok (.pattern 7) ∧
  decodeCommand 0x0002000D = .ok (.write 2) ∧
  decodeCommand 0x0000010F = .ok (.blset true) ∧
  decodeRequest (.instr 0x0E) = .ok (.lcdDisplayControl true true false) ∧
  decodeRequest (.nibble 0x2) = .ok .lcdNibbleModefix

/-- R104 (D2): the assembler's word formulas give the words the decoder's table was written for. -/
def Obligations.AssemblerWordsAgree : Prop :=
  ∀ i : Instr, asmWord i = if i.isCommand then some (commandWord i) else none

/-- R82 (D5): the kind and the argument of each request, and that the two determine it. -/
def Obligations.BusPortEncodingRoundTrip : Prop :=
  (∀ r : BusReq, breqOfPort (breqKind r) (breqArg r) = some r) ∧
  (breqKind .init = 0 ∧ breqArg .init = 0) ∧
  (∀ m, breqKind (.negotiate m) = 1 ∧ breqArg (.negotiate m) = if m = .eightBit then 1 else 0) ∧
  (∀ op, breqKind (.instr op) = 2 ∧ breqArg (.instr op) = op) ∧
  (∀ n, breqKind (.nibble n) = 3 ∧ breqArg (.nibble n) = n.setWidth 8) ∧
  (∀ b, breqKind (.data b) = 4 ∧ breqArg (.data b) = b) ∧
  (breqKind .blSupported = 5 ∧ breqArg .blSupported = 0) ∧
  (∀ e, breqKind (.blSet e) = 6 ∧ breqArg (.blSet e) = if e = true then 1 else 0) ∧
  (breqKind .blGet = 7 ∧ breqArg .blGet = 0)

/-- R87 (D4) with the codes of R223: the fields of the response word. -/
def Obligations.ResponseWordFields : Prop :=
  ∀ (st : Status) (val : Half),
    (responseWord st val).extractLsb' 0 2 = statusCode st ∧
    (responseWord st val).extractLsb' 2 14 = 0 ∧
    (responseWord st val).extractLsb' 16 16 = val ∧
    statusCode .ok = 0 ∧ statusCode .errIllegal = 1 ∧ statusCode .errState = 2 ∧ statusCode .errInitFailed = 3

/-! ### Reset -/

/-- R39: the reset value of every piece of state it names. -/
def Obligations.ResetLeavesStatedValues : Prop :=
  State.reset.phase = .uninit ∧ State.reset.busy = false ∧ State.reset.upc = 0 ∧ State.reset.tm.bit = false ∧
  State.reset.fs = 0x00 ∧ State.reset.dc = 0x00 ∧ State.reset.em = 0x00 ∧ State.reset.lines = 0 ∧
  (∀ l, l < 4 → latAt State.reset.lat l = 0x00) ∧
  State.reset.k = 0 ∧ State.reset.nok = 0 ∧ State.reset.stop = false

/-- R250 and R251: a step with `rst` asserted puts every register at its reset value, makes no bus or timer request
(nothing stands on those ports after it, and the trace gains only the marks that what was outstanding is cut off), and
drives no response. The marks are the model's record (log entry 5). -/
def Obligations.HardwareResetResetsEveryRegister : Prop :=
  ∀ s : State, s.rst = true → ∃ t, step s = .next t ∧
    t.phase = .uninit ∧ t.busy = false ∧ t.upc = 0 ∧ t.tm = .fourBit ∧ t.fs = 0x00 ∧ t.dc = 0x00 ∧ t.em = 0x00 ∧
    t.lines = 0 ∧ t.lat = ⟨0, 0, 0, 0⟩ ∧ t.k = 0 ∧ t.nok = 0 ∧ t.stop = false ∧
    t.breq = none ∧ t.treq = none ∧ t.rsps = s.rsps ∧
    t.trace = s.trace ++ (s.breq.map Event.busCut).toList ++ (s.treq.map Event.waitCut).toList

/-- R251 (D24), for a command that has a bus request outstanding, its answer there already or still to come: no response is
driven, the request stays unanswered in the trace, the adapter's next answer is skipped, and no payload byte is taken. Which answer is the late one is the model's
reading (log entry 5). -/
def Obligations.ResetDuringBusRequest : Prop :=
  ∀ (s : State) (r : BusReq),
    s.rst = true → s.breq = some r → s.treq = none →
    ∃ t, step s = .next t ∧ t.rsps = s.rsps ∧ t.trace = s.trace ++ [.busCut r] ∧
      (∀ later : List Byte, { t with busIn := s.busIn ++ later }.answers = { s with busIn := s.busIn ++ later }.answers.drop 1) ∧
      t.dones = s.dones ∧ t.plIn = s.plIn ∧ t.cmdIn = s.cmdIn

/-- R251 (D24), for a command that waits, its done there already or still to come: no response is driven, the wait stays
unanswered in the trace, and the timer's next done is skipped (log entry 5). -/
def Obligations.ResetDuringWait : Prop :=
  ∀ (s : State) (us : Half),
    s.rst = true → s.breq = none → s.treq = some us →
    ∃ t, step s = .next t ∧ t.rsps = s.rsps ∧ t.trace = s.trace ++ [.waitCut us] ∧
      (∀ later : Nat, { t with timerIn := s.timerIn + later }.dones = { s with timerIn := s.timerIn + later }.dones - 1) ∧
      t.answers = s.answers ∧ t.plIn = s.plIn ∧ t.cmdIn = s.cmdIn

/-! ### A step runs the decoded instruction -/

/-- A word presented to an idle block that decodes to a command: the step takes the word from the port and is the meaning
of the command. That one step is the whole meaning, and not the acceptance alone as R81 counts, is the model's choice (log
entry 1). -/
def Obligations.StepRunsPresentedCommand : Prop :=
  ∀ (s : State) (w : Word) (ws : List Word) (i : Instr),
    s.rst = false → s.busy = false → s.breq = none → s.cmdIn = w :: ws → decodeCommand w = .ok i →
    step s = exec i { s with cmdIn := ws }

/-- An emitted form that stands on the bus request port: the step is the meaning of the form. That the step looks at the form
first, ahead of the running command, and on the port of an idle block too, is the model's choice (log entry 10). -/
def Obligations.StepRunsEmittedForm : Prop :=
  ∀ (s : State) (r : BusReq) (i : Instr),
    s.rst = false → s.breq = some r → decodeRequest r = .ok i → step s = exec i s

/-- A command that runs, with no emitted form on the port: the step is the meaning of the command (the model's choices: log
entry 1 for the many transactions of a step, log entry 10 for the form that goes first). -/
def Obligations.StepGoesOnWithRunningCommand : Prop :=
  ∀ (s : State) (i : Instr),
    s.rst = false → s.busy = true → (∀ r j, s.breq = some r → decodeRequest r ≠ .ok j) →
    decodeCommand s.ir = .ok i → step s = exec i s

/-- R81 (D1): a step is one or more of the block's transactions, each one accepted word, payload byte, bus answer, timer done
or internal micro-operation (log entry 1). -/
def Obligations.StepIsTransactions : Prop :=
  ∀ s : State, ∃ n, step s = .next (transactions (n + 1) s)

/-- R24 (D27): while a command runs, no step takes a word from the command port. -/
def Obligations.BusyBlockAcceptsNoCommand : Prop :=
  ∀ s t : State, s.busy = true → step s = .next t → t.cmdIn = s.cmdIn

/-- R241: an idle block to which no command word is presented does nothing. -/
def Obligations.IdleBlockDoesNothing : Prop :=
  ∀ s : State, s.rst = false → s.Idle → s.cmdIn = [] → step s = .next s

/-- R237: while the adapter has not answered the outstanding request, or the timer has not reported the outstanding wait
done, the block stays as it is. -/
def Obligations.UnansweredBlockHangs : Prop :=
  (∀ (s : State) (r : BusReq), s.rst = false → s.busy = true → s.breq = some r → s.answers = [] →
    step s = .next s) ∧
  (∀ (s : State) (us : Half), s.rst = false → s.busy = true → s.breq = none → s.treq = some us → s.dones = 0 →
    step s = .next s)

/-- R27: a transaction leaves `UPC`, advances it by exactly one, or clears it where the response is driven, hardware reset
apart; it never goes back. The transaction in which a bus request of the running command is answered advances it, but in
WRITE while bytes are left (R188) and but for the failed bus that ends INIT (R122); the one in which a wait is done
advances it. How the steps are numbered is the model's reading (log entry 3); that the width is unbounded is its choice (log
entry 25), and so is how an answer is taken in states that no run reaches (log entry 24). -/
def Obligations.SequencerPointerAdvancesByOne : Prop :=
  ∀ s : State, s.rst = false → s.busy = true →
    ((transaction s).upc = s.upc ∨ (transaction s).upc = s.upc + 1 ∨
      ((transaction s).upc = 0 ∧ (transaction s).busy = false ∧ ∃ w, (transaction s).rsps = s.rsps ++ [w])) ∧
    (∀ (r : BusReq) (a : Byte) (rest : List Byte) (i : Instr),
      s.breq = some r → s.answers = a :: rest → decodeCommand s.ir = .ok i →
      ((∀ len, i = .write len → len.toNat ≤ s.k.toNat + 1) → ¬ (r = .init ∧ a = 0) →
        (transaction s).upc = s.upc + 1) ∧
      ((∃ len, i = .write len ∧ s.k.toNat + 1 < len.toNat) → (transaction s).upc = s.upc)) ∧
    (∀ (us : Half) (d : Nat), s.breq = none → s.treq = some us → s.dones = d + 1 →
      (transaction s).upc = s.upc + 1)

/-- R70 and R80: a transaction records at most one external request, a new one stands on a port only if none was outstanding,
and from none outstanding no two come to stand together. -/
def Obligations.OneRequestAtATime : Prop :=
  ∀ s : State, s.rst = false → s.busy = true →
    ((transaction s).trace = s.trace ∨ ∃ e, (transaction s).trace = s.trace ++ [e]) ∧
    (s.breq.isSome = true ∨ s.treq.isSome = true →
      ((transaction s).breq = s.breq ∧ (transaction s).treq = s.treq) ∨
      ((transaction s).breq = none ∧ ((transaction s).treq = none ∨ (transaction s).treq = s.treq))) ∧
    (s.breq = none → s.treq = none → (transaction s).breq = none ∨ (transaction s).treq = none)

/-! ### Errors and admission -/

/-- R222 (D3, D21) for a word that R100 makes illegal, in every phase (R225, D22): its payload is taken and discarded, the
response is `ERR_ILLEGAL, 0`, and nothing else changes. -/
def Obligations.IllegalWordIsAnswered : Prop :=
  ∀ (s : State) (w : Word) (ws : List Word) (e : DecodeError),
    s.rst = false → s.Idle → s.cmdIn = w :: ws → decodeCommand w = .error e → paylen w ≤ s.plIn.length →
    step s = .next { s with
      cmdIn := ws, plIn := s.plIn.drop (paylen w), rsps := s.rsps ++ [0x00000001] }

/-- R222 for a legal command that its phase does not admit: payload discarded, `ERR_STATE, 0`, nothing else changes. -/
def Obligations.MisplacedCommandIsAnswered : Prop :=
  ∀ (s : State) (i : Instr),
    s.Idle → i.isCommand = true → i.wellFormed = true → admitted i s.phase = false →
    payloadLength i ≤ s.plIn.length →
    exec i s = .next { s with
      plIn := s.plIn.drop (payloadLength i), rsps := s.rsps ++ [0x00000002] }

/-- R224 (D21): the admission table, a row for each command and each phase. -/
def Obligations.AdmissionTable : Prop :=
  ∀ (i : Instr) (p : Phase), i.isCommand = true →
    (admitted i p = true ↔
      match i with
      | .init _ _ _ _ => p = .uninit
      | .deinit => p = .uninit ∨ p = .ready ∨ p = .failed
      | _ => p = .ready)

/-- R225 (D22): an INIT with an illegal line count is answered `ERR_ILLEGAL` in every phase, READY among them. -/
def Obligations.IllegalLineCountBeatsPhase : Prop :=
  ∀ (s : State) (w : BitVec 8) (h : BitVec 3) (p : Font) (m : TransferMode),
    s.Idle → (h = 0 ∨ 5 ≤ h.toNat) →
    exec (.init w h p m) s = .next { s with rsps := s.rsps ++ [0x00000001] }

/-! ### INIT and DEINIT -/

/-- R122 (D9): the adapter answers false to `BusInit`. -/
def Obligations.InitFailsWithoutBus : Prop :=
  ∀ (s : State) (w : BitVec 8) (h : BitVec 3) (p : Font) (m : TransferMode) (rest : List Byte),
    s.Idle → s.phase = .uninit → 1 ≤ h.toNat → h.toNat ≤ 4 → s.answers = 0 :: rest →
    exec (.init w h p m) s = .next { s with
      phase := .failed, busIn := rest, busLate := 0,
      trace := s.trace ++ [.bus .init 0], rsps := s.rsps ++ [0x00000003] }

/-- R120 to R130 where the adapter answers 4-bit: the registers, the whole trace and the response. The nibble values are
the spec's general knowledge (D6, R96); the places of the waits are D8, the function set of three lines D11, the width
class D12. -/
def Obligations.InitRunsFourBitSequence : Prop :=
  ∀ (s : State) (w : BitVec 8) (h : BitVec 3) (p : Font) (m : TransferMode)
    (ok mode n1 n2 n3 n4 c1 c2 c3 c4 : Byte) (rest : List Byte) (d : Nat),
    s.Idle → s.phase = .uninit → 1 ≤ h.toNat → h.toNat ≤ 4 → ok ≠ 0 → mode.getLsbD 0 = false →
    s.answers = [ok, mode, n1, n2, n3, n4, c1, c2, c3, c4] ++ rest → s.dones = d + 5 →
    exec (.init w h p m) s = .next { s with
      phase := .ready, tm := .fourBit, fs := deriveFs .fourBit h p, dc := 0x04, em := 0x02, lines := h,
      lat := if w.toNat ≤ 16 then Config.lineBaseNarrow else Config.lineBaseWide,
      busIn := rest, busLate := 0, timerIn := d, timerLate := 0,
      trace := s.trace ++ [.bus .init ok, .bus (.negotiate m) mode] ++
        initTrace4 (deriveFs .fourBit h p) n1 n2 n3 n4 c1 c2 c3 c4,
      rsps := s.rsps ++ [0x00010000] }

/-- R120 to R130 where the adapter answers 8-bit, whatever INIT preferred (R123, D31). The three burst instructions are D7, the
places of the waits D8, the function set of three lines D11, the width class D12. -/
def Obligations.InitRunsEightBitSequence : Prop :=
  ∀ (s : State) (w : BitVec 8) (h : BitVec 3) (p : Font) (m : TransferMode)
    (ok mode n1 n2 n3 c1 c2 c3 c4 : Byte) (rest : List Byte) (d : Nat),
    s.Idle → s.phase = .uninit → 1 ≤ h.toNat → h.toNat ≤ 4 → ok ≠ 0 → mode.getLsbD 0 = true →
    s.answers = [ok, mode, n1, n2, n3, c1, c2, c3, c4] ++ rest → s.dones = d + 5 →
    exec (.init w h p m) s = .next { s with
      phase := .ready, tm := .eightBit, fs := deriveFs .eightBit h p, dc := 0x04, em := 0x02, lines := h,
      lat := if w.toNat ≤ 16 then Config.lineBaseNarrow else Config.lineBaseWide,
      busIn := rest, busLate := 0, timerIn := d, timerLate := 0,
      trace := s.trace ++ [.bus .init ok, .bus (.negotiate m) mode] ++
        initTrace8 (deriveFs .eightBit h p) n1 n2 n3 c1 c2 c3 c4,
      rsps := s.rsps ++ [0x00010000] }

/-- R124: the four clauses of the function-set derivation (N for three lines is D11). -/
def Obligations.FunctionSetDerivation : Prop :=
  ∀ (tm : TransferMode) (h : BitVec 3) (p : Font),
    (deriveFs tm h p).getLsbD 4 = tm.bit ∧
    ((deriveFs tm h p).getLsbD 3 = true ↔ 2 ≤ h.toNat) ∧
    ((deriveFs tm h p).getLsbD 2 = true ↔ p.bit = true ∧ h.toNat = 1) ∧
    deriveFs tm h p &&& 0xE3 = 0

/-- R131 (D21): DEINIT from UNINIT, READY and FAILED goes to RELEASED, writes `PHASE` only and makes no request. -/
def Obligations.DeinitReleases : Prop :=
  ∀ s : State, s.Idle → s.phase ≠ .released →
    exec .deinit s = .next { s with phase := .released, rsps := s.rsps ++ [0x00000000] }

/-! ### Single-instruction commands -/

/-- R140 and R142 (the value is D18): CLEAR and HOME emit 0x01 and 0x02, wait 2000 µs whatever the count, write no register,
and respond with the count. -/
def Obligations.ClearAndHomeEmitAndWait : Prop :=
  ∀ (s : State) (c : Byte) (rest : List Byte) (d : Nat),
    s.ReadyIdle → s.answers = c :: rest → s.dones = d + 1 →
    exec .clear s = .next { s with
      busIn := rest, busLate := 0, timerIn := d, timerLate := 0,
      trace := s.trace ++ [.bus (.instr 0x01) c, .wait 2000],
      rsps := s.rsps ++ [responseWord .ok (c.setWidth 16)] } ∧
    exec .home s = .next { s with
      busIn := rest, busLate := 0, timerIn := d, timerLate := 0,
      trace := s.trace ++ [.bus (.instr 0x02) c, .wait 2000],
      rsps := s.rsps ++ [responseWord .ok (c.setWidth 16)] }

/-- R144 to R147: SETCUR emits `0x80 | trunc_8(col + LAT[min(line, LINES - 1)])`, never rejects an operand, requests no
wait and writes no register (D14, D18). -/
def Obligations.SetcurEmitsLineAddress : Prop :=
  ∀ (s : State) (col line c : Byte) (rest : List Byte),
    s.ReadyIdle → s.LegalLines → s.answers = c :: rest →
    exec (.setcur col line) s = .next { s with
      busIn := rest, busLate := 0,
      trace := s.trace ++
        [.bus (.instr (0x80 ||| (col + (latAt s.lat (min line.toNat (s.lines.toNat - 1))).setWidth 8))) c],
      rsps := s.rsps ++ [responseWord .ok (c.setWidth 16)] }

/-- R145: with `LINES` in 1..4 the index is the clamped line and lies in 0..3; a line past the last is the last. -/
def Obligations.LineClampStaysInTable : Prop :=
  ∀ (line : BitVec 8) (lines : BitVec 3), 1 ≤ lines.toNat → lines.toNat ≤ 4 →
    clampLine line lines < 4 ∧ clampLine line lines = min line.toNat (lines.toNat - 1) ∧
    (lines.toNat ≤ line.toNat → clampLine line lines = lines.toNat - 1)

/-- R146 (D14): the DDRAM address the controller receives is `(col + LAT[l]) mod 128`, and bit 7 of the byte is 1. -/
def Obligations.CursorAddressIsModulo128 : Prop :=
  ∀ (col line : BitVec 8) (lines : BitVec 3) (lat : LineTable),
    (setcurOp col line lines lat).toNat =
      128 + (col.toNat + (latAt lat (clampLine line lines)).toNat) % 128

/-- R148: the four operand combinations of SHIFT (the polarity is the spec's general knowledge, D15). -/
def Obligations.ShiftEmitsScopeAndDirection : Prop :=
  ∀ (s : State) (r : ShiftDir) (co : Bool) (c : Byte) (rest : List Byte),
    s.ReadyIdle → s.answers = c :: rest →
    exec (.shift r co) s = .next { s with
      busIn := rest, busLate := 0,
      trace := s.trace ++ [.bus (.instr (match r, co with
        | .left, true => 0x10
        | .right, true => 0x14
        | .left, false => 0x18
        | .right, false => 0x1C)) c],
      rsps := s.rsps ++ [responseWord .ok (c.setWidth 16)] }

/-! ### Control-register commands -/

/-- R160 with R162 and R164: TEXTDIR and AUTOSCROLL set or clear their bit of `EM`, then emit the whole register, and keep
the new value whatever the count (R161; the polarity of the scroll bit is D16, the value D18). -/
def Obligations.EntryModeCommandsMutateAndEmit : Prop :=
  ∀ (s : State) (c : Byte) (rest : List Byte), s.ReadyIdle → s.answers = c :: rest →
    (∀ d : TextDir, exec (.textdir d) s =
      .next { s with
        em := rmw (s.em &&& 0x03) 0x02 d.bit, busIn := rest, busLate := 0,
        trace := s.trace ++ [.bus (.instr (0x04 ||| rmw (s.em &&& 0x03) 0x02 d.bit)) c],
        rsps := s.rsps ++ [responseWord .ok (c.setWidth 16)] }) ∧
    (∀ b : Bool, exec (.autoscroll b) s =
      .next { s with
        em := rmw (s.em &&& 0x03) 0x01 b, busIn := rest, busLate := 0,
        trace := s.trace ++ [.bus (.instr (0x04 ||| rmw (s.em &&& 0x03) 0x01 b)) c],
        rsps := s.rsps ++ [responseWord .ok (c.setWidth 16)] })

/-- R160 with R166, R168 and R170: DISPLAY, CURSOR and BLINK do the same to their bit of `DC` (D16, D18). -/
def Obligations.DisplayCommandsMutateAndEmit : Prop :=
  ∀ (s : State) (b : Bool) (c : Byte) (rest : List Byte), s.ReadyIdle → s.answers = c :: rest →
    exec (.display b) s = .next { s with
      dc := rmw (s.dc &&& 0x07) 0x04 b, busIn := rest, busLate := 0,
      trace := s.trace ++ [.bus (.instr (0x08 ||| rmw (s.dc &&& 0x07) 0x04 b)) c],
      rsps := s.rsps ++ [responseWord .ok (c.setWidth 16)] } ∧
    exec (.cursor b) s = .next { s with
      dc := rmw (s.dc &&& 0x07) 0x02 b, busIn := rest, busLate := 0,
      trace := s.trace ++ [.bus (.instr (0x08 ||| rmw (s.dc &&& 0x07) 0x02 b)) c],
      rsps := s.rsps ++ [responseWord .ok (c.setWidth 16)] } ∧
    exec (.blink b) s = .next { s with
      dc := rmw (s.dc &&& 0x07) 0x01 b, busIn := rest, busLate := 0,
      trace := s.trace ++ [.bus (.instr (0x08 ||| rmw (s.dc &&& 0x07) 0x01 b)) c],
      rsps := s.rsps ++ [responseWord .ok (c.setWidth 16)] }

/-- R13: what the read-modify-write through a mask of one bit writes. -/
def Obligations.ReadModifyWriteBits : Prop :=
  ∀ (x : Byte) (n : Nat) (b : Bool) (j : Nat), n < 8 →
    (rmw x ((1 : Byte) <<< n) b).getLsbD j = if j = n then b else x.getLsbD j

/-- R172 and R34: from any state at all, the bits of `DC` and `EM` outside a register command's own mask are the same after
it, and no other register of R22 changes. -/
def Obligations.RegisterCommandsIsolateBits : Prop :=
  ∀ s t : State,
    (∀ d, exec (.textdir d) s = .next t → t.em &&& 0x01 = s.em &&& 0x01 ∧ s.SameRegisters { t with em := s.em }) ∧
    (∀ b, exec (.autoscroll b) s = .next t → t.em &&& 0x02 = s.em &&& 0x02 ∧ s.SameRegisters { t with em := s.em }) ∧
    (∀ b, exec (.display b) s = .next t → t.dc &&& 0x03 = s.dc &&& 0x03 ∧ s.SameRegisters { t with dc := s.dc }) ∧
    (∀ b, exec (.cursor b) s = .next t → t.dc &&& 0x05 = s.dc &&& 0x05 ∧ s.SameRegisters { t with dc := s.dc }) ∧
    (∀ b, exec (.blink b) s = .next t → t.dc &&& 0x06 = s.dc &&& 0x06 ∧ s.SameRegisters { t with dc := s.dc })

/-- R173: two register commands that touch different bits commute in the final registers, for every operand and every
register value, and each emits the whole register as it stands after its own mutation, so that the order is visible in the
trace: two commands of `EM`, two of `DC`, and one of each. The last clause is R173's example. -/
def Obligations.RegisterCommandsCommuteInValueOnly : Prop :=
  ∀ (s : State) (c1 c2 : Byte) (rest : List Byte), s.ReadyIdle → s.answers = c1 :: c2 :: rest →
    (∀ (i j : Instr) (m n : Byte) (b e : Bool),
      entryModeCommand i = some (m, b) → entryModeCommand j = some (n, e) → m ≠ n →
      ∃ u v t t', exec i s = .next u ∧ exec j u = .next t ∧ exec j s = .next v ∧ exec i v = .next t' ∧
        t.em = rmw (rmw (s.em &&& 0x03) m b) n e ∧ t'.em = t.em ∧ t.dc = s.dc ∧ t'.dc = s.dc ∧
        t.trace = s.trace ++ [.bus (.instr (0x04 ||| rmw (s.em &&& 0x03) m b)) c1, .bus (.instr (0x04 ||| t.em)) c2] ∧
        t'.trace = s.trace ++ [.bus (.instr (0x04 ||| rmw (s.em &&& 0x03) n e)) c1, .bus (.instr (0x04 ||| t.em)) c2]) ∧
    (∀ (i j : Instr) (m n : Byte) (b e : Bool),
      displayControlCommand i = some (m, b) → displayControlCommand j = some (n, e) → m ≠ n →
      ∃ u v t t', exec i s = .next u ∧ exec j u = .next t ∧ exec j s = .next v ∧ exec i v = .next t' ∧
        t.dc = rmw (rmw (s.dc &&& 0x07) m b) n e ∧ t'.dc = t.dc ∧ t.em = s.em ∧ t'.em = s.em ∧
        t.trace = s.trace ++ [.bus (.instr (0x08 ||| rmw (s.dc &&& 0x07) m b)) c1, .bus (.instr (0x08 ||| t.dc)) c2] ∧
        t'.trace = s.trace ++ [.bus (.instr (0x08 ||| rmw (s.dc &&& 0x07) n e)) c1, .bus (.instr (0x08 ||| t.dc)) c2]) ∧
    (∀ (i j : Instr) (m n : Byte) (b e : Bool),
      entryModeCommand i = some (m, b) → displayControlCommand j = some (n, e) →
      ∃ u v t t', exec i s = .next u ∧ exec j u = .next t ∧ exec j s = .next v ∧ exec i v = .next t' ∧
        t.em = rmw (s.em &&& 0x03) m b ∧ t'.em = t.em ∧ t.dc = rmw (s.dc &&& 0x07) n e ∧ t'.dc = t.dc ∧
        t.trace = s.trace ++ [.bus (.instr (0x04 ||| t.em)) c1, .bus (.instr (0x08 ||| t.dc)) c2] ∧
        t'.trace = s.trace ++ [.bus (.instr (0x08 ||| t.dc)) c1, .bus (.instr (0x04 ||| t.em)) c2]) ∧
    (s.dc = 0x04 → ∃ u v t t',
      exec (.cursor true) s = .next u ∧ exec (.blink true) u = .next t ∧
      exec (.blink true) s = .next v ∧ exec (.cursor true) v = .next t' ∧
      t.dc = 0x07 ∧ t'.dc = 0x07 ∧
      t.trace = s.trace ++ [.bus (.instr 0x0E) c1, .bus (.instr 0x0F) c2] ∧
      t'.trace = s.trace ++ [.bus (.instr 0x0D) c1, .bus (.instr 0x0F) c2])

/-! ### Data streaming -/

/-- R181 and R182: PATTERN emits one CGRAM select and exactly its 8 rows, unchanged (R183), whatever the counts, and
responds with how many of the 9 transfers succeeded (D19, D20). -/
def Obligations.PatternSendsEveryRow : Prop :=
  ∀ (s : State) (slot : BitVec 3) (rows more : List Byte) (c : Byte) (counts rest : List Byte),
    s.ReadyIdle → rows.length = 8 → counts.length = 8 → s.plIn = rows ++ more →
    s.answers = c :: counts ++ rest →
    exec (.pattern slot) s = .next { s with
      plIn := more, busIn := rest, busLate := 0,
      trace := s.trace ++ [.bus (.instr (0x40 ||| slot.setWidth 8 <<< 3)) c] ++ dataEvents rows counts,
      rsps := s.rsps ++ [responseWord .ok (BitVec.ofNat 16 (successes (c :: counts)))] }

/-- R185, R187 and R189: WRITE sends its bytes in order up to and with the first that fails, takes the rest of its payload
without sending it, and responds with how many succeeded, for every length and every sequence of counts (D17, D3). -/
def Obligations.WriteStopsAtFirstFailure : Prop :=
  ∀ (s : State) (len : BitVec 16),
    s.ReadyIdle → 0 < len.toNat → len.toNat ≤ s.plIn.length →
    bytesSent len.toNat s.answers ≤ s.answers.length →
    exec (.write len) s = .next { s with
      plIn := s.plIn.drop len.toNat,
      busIn := s.answers.drop (bytesSent len.toNat s.answers), busLate := 0,
      trace := s.trace ++ dataEvents (s.plIn.take (bytesSent len.toNat s.answers))
        (s.answers.take (bytesSent len.toNat s.answers)),
      rsps := s.rsps ++ [responseWord .ok (BitVec.ofNat 16 (bytesWritten len.toNat s.answers))] }

/-- R190: WRITE with LEN = 0 takes no payload, makes no request and responds `OK, 0`. -/
def Obligations.EmptyWriteRespondsZero : Prop :=
  ∀ s : State, s.ReadyIdle → exec (.write 0) s = .next { s with rsps := s.rsps ++ [0x00000000] }

/-! ### Backlight -/

/-- R200, R202 and R204 (D5, D23): the three backlight commands forward one request and respond with its Boolean answer. -/
def Obligations.BacklightCommandsForward : Prop :=
  ∀ (s : State) (a : Byte) (rest : List Byte), s.ReadyIdle → s.answers = a :: rest →
    exec .blsup s = .next { s with
      busIn := rest, busLate := 0, trace := s.trace ++ [.bus .blSupported a],
      rsps := s.rsps ++ [responseWord .ok (if a = 0 then 0 else 1)] } ∧
    (∀ b : Bool, exec (.blset b) s = .next { s with
      busIn := rest, busLate := 0, trace := s.trace ++ [.bus (.blSet b) a],
      rsps := s.rsps ++ [responseWord .ok (if a = 0 then 0 else 1)] }) ∧
    exec .blget s = .next { s with
      busIn := rest, busLate := 0, trace := s.trace ++ [.bus .blGet a],
      rsps := s.rsps ++ [responseWord .ok (if a = 0 then 0 else 1)] }

/-! ### Emitted forms -/

/-- R68 for each emitted form (the eleven constructors that have a bus request): one exchange, recorded with its answer.
Where the form is the running command's own request, its answer completes the command's micro-operation in the same
transaction, and `UPC` advances (R27) but in WRITE while bytes are left (R188): INIT does not read the count (R130), PATTERN
counts its select and its rows (R181), WRITE counts its bytes and sets `STOP` at a failure (R185), any other command keeps
the count. On an idle block the port is free and the exchange is recorded (log entry 10). That all the micro-operation does
with the answer is one transaction is read from R27 and R81, and how an answer is taken in states that no run reaches is
the model's choice (log entry 24). -/
def Obligations.EmittedFormIsOneExchange : Prop :=
  ∀ (i : Instr) (r : BusReq) (s : State) (a : Byte) (rest : List Byte),
    requestOf i = some r → s.answers = a :: rest →
    (∀ j : Instr, s.busy = true → s.breq = some r → decodeCommand s.ir = .ok j →
      exec i s = .next
        (let t : State := { s with breq := none, busIn := rest, busLate := 0, trace := s.trace ++ [.bus r a] }
        match j, r with
        | .init _ _ _ _, _ => { t with upc := s.upc + 1 }
        | .pattern _, .data _ =>
          { t with nok := if a = 0 then s.nok else s.nok + 1, k := s.k + 1, upc := s.upc + 1 }
        | .pattern _, _ => { t with nok := if a = 0 then 0 else 1, k := 0, upc := s.upc + 1 }
        | .write len, _ =>
          { t with
            nok := if a = 0 then s.nok else s.nok + 1, stop := s.stop || a == 0, k := s.k + 1,
            upc := if s.k.toNat + 1 < len.toNat then s.upc else s.upc + 1 }
        | _, _ => { t with cnt := a, upc := s.upc + 1 })) ∧
    (s.Idle → exec i s = .next { s with busIn := rest, busLate := 0, trace := s.trace ++ [.bus r a] })

/-! ### Frames -/

/-- From any state at all: CLEAR, HOME, SETCUR, SHIFT, PATTERN, WRITE and the backlight commands change no register of R22
and take no command word. -/
def Obligations.TransferCommandsKeepRegisters : Prop :=
  ∀ (i : Instr) (s t : State),
    (i = .clear ∨ i = .home ∨ (∃ col line, i = .setcur col line) ∨ (∃ r co, i = .shift r co) ∨
      (∃ slot, i = .pattern slot) ∨ (∃ len, i = .write len) ∨ i = .blsup ∨ (∃ b, i = .blset b) ∨ i = .blget) →
    exec i s = .next t → s.SameRegisters t ∧ t.cmdIn = s.cmdIn

/-- From any state at all: an emitted form changes no register of R22 and not `BUSY`, takes no command word, no payload byte and
no timer done, and drives no response. `UPC`, `K`, `NOK`, `STOP` and the kept count change only where the form is the running
command's request and is answered, and then as that command's micro-operation says: `UPC` is one more (R27), but in WRITE
while bytes are left as before (R188); `K` and `NOK` change in PATTERN and WRITE only, `STOP` in WRITE only (R33), and the
kept count not in those two nor in INIT. The moment is read from R27 and R81, and what a held word that is no command does
with an answer is the model's choice (log entry 24). -/
def Obligations.EmittedFormsKeepRegisters : Prop :=
  ∀ (i : Instr) (s t : State), i.isCommand = false → exec i s = .next t →
    (s.SameRegisters t ∧ t.busy = s.busy ∧
      t.ir = s.ir ∧ t.treq = s.treq ∧ t.cmdIn = s.cmdIn ∧ t.plIn = s.plIn ∧ t.rsps = s.rsps ∧
      t.timerIn = s.timerIn ∧ t.timerLate = s.timerLate) ∧
    (s.busy = false ∨ s.breq ≠ requestOf i ∨ s.answers = [] ∨ (∃ e, decodeCommand s.ir = .error e) →
      t.upc = s.upc ∧ t.k = s.k ∧ t.nok = s.nok ∧ t.stop = s.stop ∧ t.cnt = s.cnt) ∧
    (∀ j : Instr, s.busy = true → s.breq = requestOf i → s.answers ≠ [] → decodeCommand s.ir = .ok j →
      ((∀ len, j = .write len → len.toNat ≤ s.k.toNat + 1) → t.upc = s.upc + 1) ∧
      ((∃ len, j = .write len ∧ s.k.toNat + 1 < len.toNat) → t.upc = s.upc) ∧
      ((∀ len, j ≠ .write len) → t.stop = s.stop) ∧
      ((∀ len, j ≠ .write len) → (∀ slot, j ≠ .pattern slot) → t.k = s.k ∧ t.nok = s.nok) ∧
      ((∃ len, j = .write len) ∨ (∃ slot, j = .pattern slot) ∨ (∃ w h p m, j = .init w h p m) → t.cnt = s.cnt))

/-- From any state at all: DEINIT changes no register of R22 but `PHASE`, and that to RELEASED only; INIT and DEINIT take no
command word and no payload byte. -/
def Obligations.InitAndDeinitFrames : Prop :=
  (∀ s t : State, exec .deinit s = .next t →
    s.SameRegisters { t with phase := s.phase } ∧ (t.phase = s.phase ∨ t.phase = .released) ∧
    t.cmdIn = s.cmdIn ∧ t.plIn = s.plIn) ∧
  (∀ (s t : State) (w : BitVec 8) (h : BitVec 3) (p : Font) (m : TransferMode),
    exec (.init w h p m) s = .next t → t.cmdIn = s.cmdIn ∧ t.plIn = s.plIn)

/-! ### Invariants -/

/-- The invariant holds after reset. -/
def Obligations.ResetMeetsInvariant : Prop := State.reset.Inv ∧ State.reset.EmitsClosed

/-- R38 as an invariant, with R34's hardwired bits, R70's single outstanding request, and the legality of what runs: every
step keeps it, from every state that meets it. -/
def Obligations.StepKeepsInvariant : Prop :=
  ∀ s t : State, s.Inv → step s = .next t → t.Inv

/-- R99 and R265: the block never emits an instruction byte, a nibble or a wait outside the closed sets. -/
def Obligations.StepEmitsOnlyClosedSet : Prop :=
  ∀ s t : State, s.Inv → s.EmitsClosed → step s = .next t → t.EmitsClosed

/-- R23: without hardware reset, a step moves `PHASE` only along the listed transitions. -/
def Obligations.PhaseMovesLegally : Prop :=
  ∀ s t : State, s.Inv → s.rst = false → step s = .next t → legalPhaseStep s.phase t.phase

/-- R25 and R31: in READY, no step but hardware reset changes the transfer mode, the function set, the line count or the
line table. -/
def Obligations.ConfigurationIsImmutableInReady : Prop :=
  ∀ s t : State, s.Inv → s.rst = false → s.phase = .ready → step s = .next t →
    t.tm = s.tm ∧ t.fs = s.fs ∧ t.lines = s.lines ∧ t.lat = s.lat

/-- Every step is a next state: the block has no trap (R221, R228). That it has no other stop is the model's reading (log
entry 21). -/
def Obligations.StepNeverStops : Prop := ∀ s : State, ∃ t, step s = .next t
end

