-- ==== Sys2Proof/Laws/Decode.lean ====
section
/-! SUPPORT. The bits and fields of a command word, so that no proof unfolds the concatenation of its bytes again. -/

namespace Sys2Proof

/-- Which byte a bit of a command word lies in (R83). -/
theorem commandWordOf_bit (op a b c : Byte) (i : Nat) :
    (commandWordOf op a b c).getLsbD i =
      if i < 8 then op.getLsbD i
      else if i < 16 then a.getLsbD (i - 8)
      else if i < 24 then b.getLsbD (i - 16)
      else c.getLsbD (i - 24) := by
  have h : (commandWordOf op a b c).getLsbD i = BitVec.getLsbD (c ++ b ++ a ++ op) i := rfl
  rw [h]
  simp only [BitVec.getLsbD_append, Nat.sub_sub]
  split
  · rfl
  · split
    · rw [if_pos (by omega)]
    · split
      · rw [if_neg (by omega), if_pos (by omega)]
      · rw [if_neg (by omega), if_neg (by omega)]

/-- The command code of a word is in its lowest byte (R83). -/
theorem opcode_commandWordOf (op a b c : Byte) : opcode (commandWordOf op a b c) = op.extractLsb' 0 5 := by
  apply BitVec.eq_of_getLsbD_eq
  intro i hi
  simp only [opcode, field, BitVec.getLsbD_extractLsb', commandWordOf_bit, Nat.zero_add]
  rw [if_pos (by omega)]

/-- Operand byte `A` (R83). -/
theorem field_a_commandWordOf (op a b c : Byte) : field (commandWordOf op a b c) 8 8 = a := by
  apply BitVec.eq_of_getLsbD_eq
  intro i hi
  simp only [field, BitVec.getLsbD_extractLsb', commandWordOf_bit]
  rw [if_neg (by omega), if_pos (by omega), Nat.add_sub_cancel_left]
  simp [hi]

/-- Operand byte `B` (R83). -/
theorem field_b_commandWordOf (op a b c : Byte) : field (commandWordOf op a b c) 16 8 = b := by
  apply BitVec.eq_of_getLsbD_eq
  intro i hi
  simp only [field, BitVec.getLsbD_extractLsb', commandWordOf_bit]
  rw [if_neg (by omega), if_neg (by omega), if_pos (by omega), Nat.add_sub_cancel_left]
  simp [hi]

/-- A mask applied to a word is applied to each of its bytes. -/
theorem commandWordOf_and (op a b c op' a' b' c' : Byte) :
    commandWordOf op a b c &&& commandWordOf op' a' b' c' =
      commandWordOf (op &&& op') (a &&& a') (b &&& b') (c &&& c') := by
  apply BitVec.eq_of_getLsbD_eq
  intro i _
  simp only [BitVec.getLsbD_and, commandWordOf_bit]
  split
  · rfl
  · split
    · rfl
    · split <;> rfl

/-- The length field of WRITE is `{C, B}` (R83). -/
theorem field_len_commandWordOf (op a b c : Byte) : field (commandWordOf op a b c) 16 16 = (c ++ b : BitVec 16) := by
  apply BitVec.eq_of_getLsbD_eq
  intro i hi
  have h : BitVec.getLsbD (c ++ b : BitVec 16) i = if i < 8 then b.getLsbD i else c.getLsbD (i - 8) := by
    have h' : BitVec.getLsbD (c ++ b : BitVec 16) i = BitVec.getLsbD (c ++ b) i := rfl
    rw [h', BitVec.getLsbD_append]
  simp only [field, BitVec.getLsbD_extractLsb', commandWordOf_bit, h]
  rw [if_neg (by omega), if_neg (by omega)]
  by_cases h8 : i < 8
  · rw [if_pos (by omega), if_pos h8, Nat.add_sub_cancel_left]
    simp [hi]
  · rw [if_neg (by omega), if_neg h8, show 16 + i - 24 = i - 8 by omega]
    simp [hi]

/-- The two bytes of a length put together again. -/
theorem length_bytes (len : BitVec 16) : (len.extractLsb' 8 8 ++ len.extractLsb' 0 8 : BitVec 16) = len := by
  apply BitVec.eq_of_getLsbD_eq
  intro i hi
  have h' : BitVec.getLsbD (len.extractLsb' 8 8 ++ len.extractLsb' 0 8 : BitVec 16) i =
      BitVec.getLsbD (len.extractLsb' 8 8 ++ len.extractLsb' 0 8) i := rfl
  rw [h', BitVec.getLsbD_append]
  by_cases h8 : i < 8
  · simp [h8]
  · simp [h8, show i - 8 < 8 by omega, show 8 + (i - 8) = i by omega]

end Sys2Proof
end

