-- ==== Sys2Proof/Laws/State.lean ====
section
/-! SUPPORT. One lemma for each field of the state under each named update of Machine/Ops.lean, true by `rfl`. -/

namespace Sys2Proof.Machine

@[simp] theorem State.writeFs_phase (v : Byte) (s : State) : (s.writeFs v).phase = s.phase := rfl
@[simp] theorem State.writeFs_busy (v : Byte) (s : State) : (s.writeFs v).busy = s.busy := rfl
@[simp] theorem State.writeFs_upc (v : Byte) (s : State) : (s.writeFs v).upc = s.upc := rfl
@[simp] theorem State.writeFs_tm (v : Byte) (s : State) : (s.writeFs v).tm = s.tm := rfl
@[simp] theorem State.writeFs_fs (v : Byte) (s : State) : (s.writeFs v).fs = v &&& liveFs := rfl
@[simp] theorem State.writeFs_dc (v : Byte) (s : State) : (s.writeFs v).dc = s.dc := rfl
@[simp] theorem State.writeFs_em (v : Byte) (s : State) : (s.writeFs v).em = s.em := rfl
@[simp] theorem State.writeFs_lines (v : Byte) (s : State) : (s.writeFs v).lines = s.lines := rfl
@[simp] theorem State.writeFs_lat (v : Byte) (s : State) : (s.writeFs v).lat = s.lat := rfl
@[simp] theorem State.writeFs_k (v : Byte) (s : State) : (s.writeFs v).k = s.k := rfl
@[simp] theorem State.writeFs_nok (v : Byte) (s : State) : (s.writeFs v).nok = s.nok := rfl
@[simp] theorem State.writeFs_stop (v : Byte) (s : State) : (s.writeFs v).stop = s.stop := rfl
@[simp] theorem State.writeFs_ir (v : Byte) (s : State) : (s.writeFs v).ir = s.ir := rfl
@[simp] theorem State.writeFs_cnt (v : Byte) (s : State) : (s.writeFs v).cnt = s.cnt := rfl
@[simp] theorem State.writeFs_breq (v : Byte) (s : State) : (s.writeFs v).breq = s.breq := rfl
@[simp] theorem State.writeFs_treq (v : Byte) (s : State) : (s.writeFs v).treq = s.treq := rfl
@[simp] theorem State.writeFs_rst (v : Byte) (s : State) : (s.writeFs v).rst = s.rst := rfl
@[simp] theorem State.writeFs_cmdIn (v : Byte) (s : State) : (s.writeFs v).cmdIn = s.cmdIn := rfl
@[simp] theorem State.writeFs_plIn (v : Byte) (s : State) : (s.writeFs v).plIn = s.plIn := rfl
@[simp] theorem State.writeFs_busIn (v : Byte) (s : State) : (s.writeFs v).busIn = s.busIn := rfl
@[simp] theorem State.writeFs_busLate (v : Byte) (s : State) : (s.writeFs v).busLate = s.busLate := rfl
@[simp] theorem State.writeFs_timerIn (v : Byte) (s : State) : (s.writeFs v).timerIn = s.timerIn := rfl
@[simp] theorem State.writeFs_timerLate (v : Byte) (s : State) : (s.writeFs v).timerLate = s.timerLate := rfl
@[simp] theorem State.writeFs_trace (v : Byte) (s : State) : (s.writeFs v).trace = s.trace := rfl
@[simp] theorem State.writeFs_rsps (v : Byte) (s : State) : (s.writeFs v).rsps = s.rsps := rfl

@[simp] theorem State.writeDc_phase (v : Byte) (s : State) : (s.writeDc v).phase = s.phase := rfl
@[simp] theorem State.writeDc_busy (v : Byte) (s : State) : (s.writeDc v).busy = s.busy := rfl
@[simp] theorem State.writeDc_upc (v : Byte) (s : State) : (s.writeDc v).upc = s.upc := rfl
@[simp] theorem State.writeDc_tm (v : Byte) (s : State) : (s.writeDc v).tm = s.tm := rfl
@[simp] theorem State.writeDc_fs (v : Byte) (s : State) : (s.writeDc v).fs = s.fs := rfl
@[simp] theorem State.writeDc_dc (v : Byte) (s : State) : (s.writeDc v).dc = v &&& liveDc := rfl
@[simp] theorem State.writeDc_em (v : Byte) (s : State) : (s.writeDc v).em = s.em := rfl
@[simp] theorem State.writeDc_lines (v : Byte) (s : State) : (s.writeDc v).lines = s.lines := rfl
@[simp] theorem State.writeDc_lat (v : Byte) (s : State) : (s.writeDc v).lat = s.lat := rfl
@[simp] theorem State.writeDc_k (v : Byte) (s : State) : (s.writeDc v).k = s.k := rfl
@[simp] theorem State.writeDc_nok (v : Byte) (s : State) : (s.writeDc v).nok = s.nok := rfl
@[simp] theorem State.writeDc_stop (v : Byte) (s : State) : (s.writeDc v).stop = s.stop := rfl
@[simp] theorem State.writeDc_ir (v : Byte) (s : State) : (s.writeDc v).ir = s.ir := rfl
@[simp] theorem State.writeDc_cnt (v : Byte) (s : State) : (s.writeDc v).cnt = s.cnt := rfl
@[simp] theorem State.writeDc_breq (v : Byte) (s : State) : (s.writeDc v).breq = s.breq := rfl
@[simp] theorem State.writeDc_treq (v : Byte) (s : State) : (s.writeDc v).treq = s.treq := rfl
@[simp] theorem State.writeDc_rst (v : Byte) (s : State) : (s.writeDc v).rst = s.rst := rfl
@[simp] theorem State.writeDc_cmdIn (v : Byte) (s : State) : (s.writeDc v).cmdIn = s.cmdIn := rfl
@[simp] theorem State.writeDc_plIn (v : Byte) (s : State) : (s.writeDc v).plIn = s.plIn := rfl
@[simp] theorem State.writeDc_busIn (v : Byte) (s : State) : (s.writeDc v).busIn = s.busIn := rfl
@[simp] theorem State.writeDc_busLate (v : Byte) (s : State) : (s.writeDc v).busLate = s.busLate := rfl
@[simp] theorem State.writeDc_timerIn (v : Byte) (s : State) : (s.writeDc v).timerIn = s.timerIn := rfl
@[simp] theorem State.writeDc_timerLate (v : Byte) (s : State) : (s.writeDc v).timerLate = s.timerLate := rfl
@[simp] theorem State.writeDc_trace (v : Byte) (s : State) : (s.writeDc v).trace = s.trace := rfl
@[simp] theorem State.writeDc_rsps (v : Byte) (s : State) : (s.writeDc v).rsps = s.rsps := rfl

@[simp] theorem State.writeEm_phase (v : Byte) (s : State) : (s.writeEm v).phase = s.phase := rfl
@[simp] theorem State.writeEm_busy (v : Byte) (s : State) : (s.writeEm v).busy = s.busy := rfl
@[simp] theorem State.writeEm_upc (v : Byte) (s : State) : (s.writeEm v).upc = s.upc := rfl
@[simp] theorem State.writeEm_tm (v : Byte) (s : State) : (s.writeEm v).tm = s.tm := rfl
@[simp] theorem State.writeEm_fs (v : Byte) (s : State) : (s.writeEm v).fs = s.fs := rfl
@[simp] theorem State.writeEm_dc (v : Byte) (s : State) : (s.writeEm v).dc = s.dc := rfl
@[simp] theorem State.writeEm_em (v : Byte) (s : State) : (s.writeEm v).em = v &&& liveEm := rfl
@[simp] theorem State.writeEm_lines (v : Byte) (s : State) : (s.writeEm v).lines = s.lines := rfl
@[simp] theorem State.writeEm_lat (v : Byte) (s : State) : (s.writeEm v).lat = s.lat := rfl
@[simp] theorem State.writeEm_k (v : Byte) (s : State) : (s.writeEm v).k = s.k := rfl
@[simp] theorem State.writeEm_nok (v : Byte) (s : State) : (s.writeEm v).nok = s.nok := rfl
@[simp] theorem State.writeEm_stop (v : Byte) (s : State) : (s.writeEm v).stop = s.stop := rfl
@[simp] theorem State.writeEm_ir (v : Byte) (s : State) : (s.writeEm v).ir = s.ir := rfl
@[simp] theorem State.writeEm_cnt (v : Byte) (s : State) : (s.writeEm v).cnt = s.cnt := rfl
@[simp] theorem State.writeEm_breq (v : Byte) (s : State) : (s.writeEm v).breq = s.breq := rfl
@[simp] theorem State.writeEm_treq (v : Byte) (s : State) : (s.writeEm v).treq = s.treq := rfl
@[simp] theorem State.writeEm_rst (v : Byte) (s : State) : (s.writeEm v).rst = s.rst := rfl
@[simp] theorem State.writeEm_cmdIn (v : Byte) (s : State) : (s.writeEm v).cmdIn = s.cmdIn := rfl
@[simp] theorem State.writeEm_plIn (v : Byte) (s : State) : (s.writeEm v).plIn = s.plIn := rfl
@[simp] theorem State.writeEm_busIn (v : Byte) (s : State) : (s.writeEm v).busIn = s.busIn := rfl
@[simp] theorem State.writeEm_busLate (v : Byte) (s : State) : (s.writeEm v).busLate = s.busLate := rfl
@[simp] theorem State.writeEm_timerIn (v : Byte) (s : State) : (s.writeEm v).timerIn = s.timerIn := rfl
@[simp] theorem State.writeEm_timerLate (v : Byte) (s : State) : (s.writeEm v).timerLate = s.timerLate := rfl
@[simp] theorem State.writeEm_trace (v : Byte) (s : State) : (s.writeEm v).trace = s.trace := rfl
@[simp] theorem State.writeEm_rsps (v : Byte) (s : State) : (s.writeEm v).rsps = s.rsps := rfl

@[simp] theorem State.writeGeometry_phase (h : BitVec 3) (t : LineTable) (s : State) : (s.writeGeometry h t).phase = s.phase := rfl
@[simp] theorem State.writeGeometry_busy (h : BitVec 3) (t : LineTable) (s : State) : (s.writeGeometry h t).busy = s.busy := rfl
@[simp] theorem State.writeGeometry_upc (h : BitVec 3) (t : LineTable) (s : State) : (s.writeGeometry h t).upc = s.upc := rfl
@[simp] theorem State.writeGeometry_tm (h : BitVec 3) (t : LineTable) (s : State) : (s.writeGeometry h t).tm = s.tm := rfl
@[simp] theorem State.writeGeometry_fs (h : BitVec 3) (t : LineTable) (s : State) : (s.writeGeometry h t).fs = s.fs := rfl
@[simp] theorem State.writeGeometry_dc (h : BitVec 3) (t : LineTable) (s : State) : (s.writeGeometry h t).dc = s.dc := rfl
@[simp] theorem State.writeGeometry_em (h : BitVec 3) (t : LineTable) (s : State) : (s.writeGeometry h t).em = s.em := rfl
@[simp] theorem State.writeGeometry_lines (h : BitVec 3) (t : LineTable) (s : State) : (s.writeGeometry h t).lines = h := rfl
@[simp] theorem State.writeGeometry_lat (h : BitVec 3) (t : LineTable) (s : State) : (s.writeGeometry h t).lat = t := rfl
@[simp] theorem State.writeGeometry_k (h : BitVec 3) (t : LineTable) (s : State) : (s.writeGeometry h t).k = s.k := rfl
@[simp] theorem State.writeGeometry_nok (h : BitVec 3) (t : LineTable) (s : State) : (s.writeGeometry h t).nok = s.nok := rfl
@[simp] theorem State.writeGeometry_stop (h : BitVec 3) (t : LineTable) (s : State) : (s.writeGeometry h t).stop = s.stop := rfl
@[simp] theorem State.writeGeometry_ir (h : BitVec 3) (t : LineTable) (s : State) : (s.writeGeometry h t).ir = s.ir := rfl
@[simp] theorem State.writeGeometry_cnt (h : BitVec 3) (t : LineTable) (s : State) : (s.writeGeometry h t).cnt = s.cnt := rfl
@[simp] theorem State.writeGeometry_breq (h : BitVec 3) (t : LineTable) (s : State) : (s.writeGeometry h t).breq = s.breq := rfl
@[simp] theorem State.writeGeometry_treq (h : BitVec 3) (t : LineTable) (s : State) : (s.writeGeometry h t).treq = s.treq := rfl
@[simp] theorem State.writeGeometry_rst (h : BitVec 3) (t : LineTable) (s : State) : (s.writeGeometry h t).rst = s.rst := rfl
@[simp] theorem State.writeGeometry_cmdIn (h : BitVec 3) (t : LineTable) (s : State) : (s.writeGeometry h t).cmdIn = s.cmdIn := rfl
@[simp] theorem State.writeGeometry_plIn (h : BitVec 3) (t : LineTable) (s : State) : (s.writeGeometry h t).plIn = s.plIn := rfl
@[simp] theorem State.writeGeometry_busIn (h : BitVec 3) (t : LineTable) (s : State) : (s.writeGeometry h t).busIn = s.busIn := rfl
@[simp] theorem State.writeGeometry_busLate (h : BitVec 3) (t : LineTable) (s : State) : (s.writeGeometry h t).busLate = s.busLate := rfl
@[simp] theorem State.writeGeometry_timerIn (h : BitVec 3) (t : LineTable) (s : State) : (s.writeGeometry h t).timerIn = s.timerIn := rfl
@[simp] theorem State.writeGeometry_timerLate (h : BitVec 3) (t : LineTable) (s : State) : (s.writeGeometry h t).timerLate = s.timerLate := rfl
@[simp] theorem State.writeGeometry_trace (h : BitVec 3) (t : LineTable) (s : State) : (s.writeGeometry h t).trace = s.trace := rfl
@[simp] theorem State.writeGeometry_rsps (h : BitVec 3) (t : LineTable) (s : State) : (s.writeGeometry h t).rsps = s.rsps := rfl

@[simp] theorem State.advance_phase (s : State) : (s.advance).phase = s.phase := rfl
@[simp] theorem State.advance_busy (s : State) : (s.advance).busy = s.busy := rfl
@[simp] theorem State.advance_upc (s : State) : (s.advance).upc = s.upc + 1 := rfl
@[simp] theorem State.advance_tm (s : State) : (s.advance).tm = s.tm := rfl
@[simp] theorem State.advance_fs (s : State) : (s.advance).fs = s.fs := rfl
@[simp] theorem State.advance_dc (s : State) : (s.advance).dc = s.dc := rfl
@[simp] theorem State.advance_em (s : State) : (s.advance).em = s.em := rfl
@[simp] theorem State.advance_lines (s : State) : (s.advance).lines = s.lines := rfl
@[simp] theorem State.advance_lat (s : State) : (s.advance).lat = s.lat := rfl
@[simp] theorem State.advance_k (s : State) : (s.advance).k = s.k := rfl
@[simp] theorem State.advance_nok (s : State) : (s.advance).nok = s.nok := rfl
@[simp] theorem State.advance_stop (s : State) : (s.advance).stop = s.stop := rfl
@[simp] theorem State.advance_ir (s : State) : (s.advance).ir = s.ir := rfl
@[simp] theorem State.advance_cnt (s : State) : (s.advance).cnt = s.cnt := rfl
@[simp] theorem State.advance_breq (s : State) : (s.advance).breq = s.breq := rfl
@[simp] theorem State.advance_treq (s : State) : (s.advance).treq = s.treq := rfl
@[simp] theorem State.advance_rst (s : State) : (s.advance).rst = s.rst := rfl
@[simp] theorem State.advance_cmdIn (s : State) : (s.advance).cmdIn = s.cmdIn := rfl
@[simp] theorem State.advance_plIn (s : State) : (s.advance).plIn = s.plIn := rfl
@[simp] theorem State.advance_busIn (s : State) : (s.advance).busIn = s.busIn := rfl
@[simp] theorem State.advance_busLate (s : State) : (s.advance).busLate = s.busLate := rfl
@[simp] theorem State.advance_timerIn (s : State) : (s.advance).timerIn = s.timerIn := rfl
@[simp] theorem State.advance_timerLate (s : State) : (s.advance).timerLate = s.timerLate := rfl
@[simp] theorem State.advance_trace (s : State) : (s.advance).trace = s.trace := rfl
@[simp] theorem State.advance_rsps (s : State) : (s.advance).rsps = s.rsps := rfl

@[simp] theorem State.latch_phase (c : Byte) (s : State) : (s.latch c).phase = s.phase := rfl
@[simp] theorem State.latch_busy (c : Byte) (s : State) : (s.latch c).busy = s.busy := rfl
@[simp] theorem State.latch_upc (c : Byte) (s : State) : (s.latch c).upc = s.upc + 1 := rfl
@[simp] theorem State.latch_tm (c : Byte) (s : State) : (s.latch c).tm = s.tm := rfl
@[simp] theorem State.latch_fs (c : Byte) (s : State) : (s.latch c).fs = s.fs := rfl
@[simp] theorem State.latch_dc (c : Byte) (s : State) : (s.latch c).dc = s.dc := rfl
@[simp] theorem State.latch_em (c : Byte) (s : State) : (s.latch c).em = s.em := rfl
@[simp] theorem State.latch_lines (c : Byte) (s : State) : (s.latch c).lines = s.lines := rfl
@[simp] theorem State.latch_lat (c : Byte) (s : State) : (s.latch c).lat = s.lat := rfl
@[simp] theorem State.latch_k (c : Byte) (s : State) : (s.latch c).k = s.k := rfl
@[simp] theorem State.latch_nok (c : Byte) (s : State) : (s.latch c).nok = s.nok := rfl
@[simp] theorem State.latch_stop (c : Byte) (s : State) : (s.latch c).stop = s.stop := rfl
@[simp] theorem State.latch_ir (c : Byte) (s : State) : (s.latch c).ir = s.ir := rfl
@[simp] theorem State.latch_cnt (c : Byte) (s : State) : (s.latch c).cnt = c := rfl
@[simp] theorem State.latch_breq (c : Byte) (s : State) : (s.latch c).breq = s.breq := rfl
@[simp] theorem State.latch_treq (c : Byte) (s : State) : (s.latch c).treq = s.treq := rfl
@[simp] theorem State.latch_rst (c : Byte) (s : State) : (s.latch c).rst = s.rst := rfl
@[simp] theorem State.latch_cmdIn (c : Byte) (s : State) : (s.latch c).cmdIn = s.cmdIn := rfl
@[simp] theorem State.latch_plIn (c : Byte) (s : State) : (s.latch c).plIn = s.plIn := rfl
@[simp] theorem State.latch_busIn (c : Byte) (s : State) : (s.latch c).busIn = s.busIn := rfl
@[simp] theorem State.latch_busLate (c : Byte) (s : State) : (s.latch c).busLate = s.busLate := rfl
@[simp] theorem State.latch_timerIn (c : Byte) (s : State) : (s.latch c).timerIn = s.timerIn := rfl
@[simp] theorem State.latch_timerLate (c : Byte) (s : State) : (s.latch c).timerLate = s.timerLate := rfl
@[simp] theorem State.latch_trace (c : Byte) (s : State) : (s.latch c).trace = s.trace := rfl
@[simp] theorem State.latch_rsps (c : Byte) (s : State) : (s.latch c).rsps = s.rsps := rfl

@[simp] theorem State.drive_phase (r : BusReq) (s : State) : (s.drive r).phase = s.phase := rfl
@[simp] theorem State.drive_busy (r : BusReq) (s : State) : (s.drive r).busy = s.busy := rfl
@[simp] theorem State.drive_upc (r : BusReq) (s : State) : (s.drive r).upc = s.upc := rfl
@[simp] theorem State.drive_tm (r : BusReq) (s : State) : (s.drive r).tm = s.tm := rfl
@[simp] theorem State.drive_fs (r : BusReq) (s : State) : (s.drive r).fs = s.fs := rfl
@[simp] theorem State.drive_dc (r : BusReq) (s : State) : (s.drive r).dc = s.dc := rfl
@[simp] theorem State.drive_em (r : BusReq) (s : State) : (s.drive r).em = s.em := rfl
@[simp] theorem State.drive_lines (r : BusReq) (s : State) : (s.drive r).lines = s.lines := rfl
@[simp] theorem State.drive_lat (r : BusReq) (s : State) : (s.drive r).lat = s.lat := rfl
@[simp] theorem State.drive_k (r : BusReq) (s : State) : (s.drive r).k = s.k := rfl
@[simp] theorem State.drive_nok (r : BusReq) (s : State) : (s.drive r).nok = s.nok := rfl
@[simp] theorem State.drive_stop (r : BusReq) (s : State) : (s.drive r).stop = s.stop := rfl
@[simp] theorem State.drive_ir (r : BusReq) (s : State) : (s.drive r).ir = s.ir := rfl
@[simp] theorem State.drive_cnt (r : BusReq) (s : State) : (s.drive r).cnt = s.cnt := rfl
@[simp] theorem State.drive_breq (r : BusReq) (s : State) : (s.drive r).breq = some r := rfl
@[simp] theorem State.drive_treq (r : BusReq) (s : State) : (s.drive r).treq = s.treq := rfl
@[simp] theorem State.drive_rst (r : BusReq) (s : State) : (s.drive r).rst = s.rst := rfl
@[simp] theorem State.drive_cmdIn (r : BusReq) (s : State) : (s.drive r).cmdIn = s.cmdIn := rfl
@[simp] theorem State.drive_plIn (r : BusReq) (s : State) : (s.drive r).plIn = s.plIn := rfl
@[simp] theorem State.drive_busIn (r : BusReq) (s : State) : (s.drive r).busIn = s.busIn := rfl
@[simp] theorem State.drive_busLate (r : BusReq) (s : State) : (s.drive r).busLate = s.busLate := rfl
@[simp] theorem State.drive_timerIn (r : BusReq) (s : State) : (s.drive r).timerIn = s.timerIn := rfl
@[simp] theorem State.drive_timerLate (r : BusReq) (s : State) : (s.drive r).timerLate = s.timerLate := rfl
@[simp] theorem State.drive_trace (r : BusReq) (s : State) : (s.drive r).trace = s.trace := rfl
@[simp] theorem State.drive_rsps (r : BusReq) (s : State) : (s.drive r).rsps = s.rsps := rfl

@[simp] theorem State.respond_phase (st : Status) (val : Half) (s : State) : (s.respond st val).phase = s.phase := rfl
@[simp] theorem State.respond_busy (st : Status) (val : Half) (s : State) : (s.respond st val).busy = false := rfl
@[simp] theorem State.respond_upc (st : Status) (val : Half) (s : State) : (s.respond st val).upc = 0 := rfl
@[simp] theorem State.respond_tm (st : Status) (val : Half) (s : State) : (s.respond st val).tm = s.tm := rfl
@[simp] theorem State.respond_fs (st : Status) (val : Half) (s : State) : (s.respond st val).fs = s.fs := rfl
@[simp] theorem State.respond_dc (st : Status) (val : Half) (s : State) : (s.respond st val).dc = s.dc := rfl
@[simp] theorem State.respond_em (st : Status) (val : Half) (s : State) : (s.respond st val).em = s.em := rfl
@[simp] theorem State.respond_lines (st : Status) (val : Half) (s : State) : (s.respond st val).lines = s.lines := rfl
@[simp] theorem State.respond_lat (st : Status) (val : Half) (s : State) : (s.respond st val).lat = s.lat := rfl
@[simp] theorem State.respond_k (st : Status) (val : Half) (s : State) : (s.respond st val).k = 0 := rfl
@[simp] theorem State.respond_nok (st : Status) (val : Half) (s : State) : (s.respond st val).nok = 0 := rfl
@[simp] theorem State.respond_stop (st : Status) (val : Half) (s : State) : (s.respond st val).stop = false := rfl
@[simp] theorem State.respond_ir (st : Status) (val : Half) (s : State) : (s.respond st val).ir = 0 := rfl
@[simp] theorem State.respond_cnt (st : Status) (val : Half) (s : State) : (s.respond st val).cnt = 0 := rfl
@[simp] theorem State.respond_breq (st : Status) (val : Half) (s : State) : (s.respond st val).breq = s.breq := rfl
@[simp] theorem State.respond_treq (st : Status) (val : Half) (s : State) : (s.respond st val).treq = s.treq := rfl
@[simp] theorem State.respond_rst (st : Status) (val : Half) (s : State) : (s.respond st val).rst = s.rst := rfl
@[simp] theorem State.respond_cmdIn (st : Status) (val : Half) (s : State) : (s.respond st val).cmdIn = s.cmdIn := rfl
@[simp] theorem State.respond_plIn (st : Status) (val : Half) (s : State) : (s.respond st val).plIn = s.plIn := rfl
@[simp] theorem State.respond_busIn (st : Status) (val : Half) (s : State) : (s.respond st val).busIn = s.busIn := rfl
@[simp] theorem State.respond_busLate (st : Status) (val : Half) (s : State) : (s.respond st val).busLate = s.busLate := rfl
@[simp] theorem State.respond_timerIn (st : Status) (val : Half) (s : State) : (s.respond st val).timerIn = s.timerIn := rfl
@[simp] theorem State.respond_timerLate (st : Status) (val : Half) (s : State) : (s.respond st val).timerLate = s.timerLate := rfl
@[simp] theorem State.respond_trace (st : Status) (val : Half) (s : State) : (s.respond st val).trace = s.trace := rfl
@[simp] theorem State.respond_rsps (st : Status) (val : Half) (s : State) : (s.respond st val).rsps = s.rsps ++ [responseWord st val] := rfl

@[simp] theorem State.raiseError_phase (st : Status) (s : State) : (s.raiseError st).phase = s.phase := rfl
@[simp] theorem State.raiseError_busy (st : Status) (s : State) : (s.raiseError st).busy = false := rfl
@[simp] theorem State.raiseError_upc (st : Status) (s : State) : (s.raiseError st).upc = 0 := rfl
@[simp] theorem State.raiseError_tm (st : Status) (s : State) : (s.raiseError st).tm = s.tm := rfl
@[simp] theorem State.raiseError_fs (st : Status) (s : State) : (s.raiseError st).fs = s.fs := rfl
@[simp] theorem State.raiseError_dc (st : Status) (s : State) : (s.raiseError st).dc = s.dc := rfl
@[simp] theorem State.raiseError_em (st : Status) (s : State) : (s.raiseError st).em = s.em := rfl
@[simp] theorem State.raiseError_lines (st : Status) (s : State) : (s.raiseError st).lines = s.lines := rfl
@[simp] theorem State.raiseError_lat (st : Status) (s : State) : (s.raiseError st).lat = s.lat := rfl
@[simp] theorem State.raiseError_k (st : Status) (s : State) : (s.raiseError st).k = 0 := rfl
@[simp] theorem State.raiseError_nok (st : Status) (s : State) : (s.raiseError st).nok = 0 := rfl
@[simp] theorem State.raiseError_stop (st : Status) (s : State) : (s.raiseError st).stop = false := rfl
@[simp] theorem State.raiseError_ir (st : Status) (s : State) : (s.raiseError st).ir = 0 := rfl
@[simp] theorem State.raiseError_cnt (st : Status) (s : State) : (s.raiseError st).cnt = 0 := rfl
@[simp] theorem State.raiseError_breq (st : Status) (s : State) : (s.raiseError st).breq = s.breq := rfl
@[simp] theorem State.raiseError_treq (st : Status) (s : State) : (s.raiseError st).treq = s.treq := rfl
@[simp] theorem State.raiseError_rst (st : Status) (s : State) : (s.raiseError st).rst = s.rst := rfl
@[simp] theorem State.raiseError_cmdIn (st : Status) (s : State) : (s.raiseError st).cmdIn = s.cmdIn := rfl
@[simp] theorem State.raiseError_plIn (st : Status) (s : State) : (s.raiseError st).plIn = s.plIn := rfl
@[simp] theorem State.raiseError_busIn (st : Status) (s : State) : (s.raiseError st).busIn = s.busIn := rfl
@[simp] theorem State.raiseError_busLate (st : Status) (s : State) : (s.raiseError st).busLate = s.busLate := rfl
@[simp] theorem State.raiseError_timerIn (st : Status) (s : State) : (s.raiseError st).timerIn = s.timerIn := rfl
@[simp] theorem State.raiseError_timerLate (st : Status) (s : State) : (s.raiseError st).timerLate = s.timerLate := rfl
@[simp] theorem State.raiseError_trace (st : Status) (s : State) : (s.raiseError st).trace = s.trace := rfl
@[simp] theorem State.raiseError_rsps (st : Status) (s : State) : (s.raiseError st).rsps = s.rsps ++ [responseWord st 0] := rfl

@[simp] theorem State.accept_phase (w : Word) (s : State) : (s.accept w).phase = s.phase := rfl
@[simp] theorem State.accept_busy (w : Word) (s : State) : (s.accept w).busy = true := rfl
@[simp] theorem State.accept_upc (w : Word) (s : State) : (s.accept w).upc = 0 := rfl
@[simp] theorem State.accept_tm (w : Word) (s : State) : (s.accept w).tm = s.tm := rfl
@[simp] theorem State.accept_fs (w : Word) (s : State) : (s.accept w).fs = s.fs := rfl
@[simp] theorem State.accept_dc (w : Word) (s : State) : (s.accept w).dc = s.dc := rfl
@[simp] theorem State.accept_em (w : Word) (s : State) : (s.accept w).em = s.em := rfl
@[simp] theorem State.accept_lines (w : Word) (s : State) : (s.accept w).lines = s.lines := rfl
@[simp] theorem State.accept_lat (w : Word) (s : State) : (s.accept w).lat = s.lat := rfl
@[simp] theorem State.accept_k (w : Word) (s : State) : (s.accept w).k = 0 := rfl
@[simp] theorem State.accept_nok (w : Word) (s : State) : (s.accept w).nok = 0 := rfl
@[simp] theorem State.accept_stop (w : Word) (s : State) : (s.accept w).stop = false := rfl
@[simp] theorem State.accept_ir (w : Word) (s : State) : (s.accept w).ir = w := rfl
@[simp] theorem State.accept_cnt (w : Word) (s : State) : (s.accept w).cnt = 0 := rfl
@[simp] theorem State.accept_breq (w : Word) (s : State) : (s.accept w).breq = none := rfl
@[simp] theorem State.accept_treq (w : Word) (s : State) : (s.accept w).treq = none := rfl
@[simp] theorem State.accept_rst (w : Word) (s : State) : (s.accept w).rst = s.rst := rfl
@[simp] theorem State.accept_cmdIn (w : Word) (s : State) : (s.accept w).cmdIn = s.cmdIn := rfl
@[simp] theorem State.accept_plIn (w : Word) (s : State) : (s.accept w).plIn = s.plIn := rfl
@[simp] theorem State.accept_busIn (w : Word) (s : State) : (s.accept w).busIn = s.busIn := rfl
@[simp] theorem State.accept_busLate (w : Word) (s : State) : (s.accept w).busLate = s.busLate := rfl
@[simp] theorem State.accept_timerIn (w : Word) (s : State) : (s.accept w).timerIn = s.timerIn := rfl
@[simp] theorem State.accept_timerLate (w : Word) (s : State) : (s.accept w).timerLate = s.timerLate := rfl
@[simp] theorem State.accept_trace (w : Word) (s : State) : (s.accept w).trace = s.trace := rfl
@[simp] theorem State.accept_rsps (w : Word) (s : State) : (s.accept w).rsps = s.rsps := rfl

@[simp] theorem State.hardReset_phase (s : State) : (s.hardReset).phase = .uninit := rfl
@[simp] theorem State.hardReset_busy (s : State) : (s.hardReset).busy = false := rfl
@[simp] theorem State.hardReset_upc (s : State) : (s.hardReset).upc = 0 := rfl
@[simp] theorem State.hardReset_tm (s : State) : (s.hardReset).tm = .fourBit := rfl
@[simp] theorem State.hardReset_fs (s : State) : (s.hardReset).fs = 0 := rfl
@[simp] theorem State.hardReset_dc (s : State) : (s.hardReset).dc = 0 := rfl
@[simp] theorem State.hardReset_em (s : State) : (s.hardReset).em = 0 := rfl
@[simp] theorem State.hardReset_lines (s : State) : (s.hardReset).lines = 0 := rfl
@[simp] theorem State.hardReset_lat (s : State) : (s.hardReset).lat = ⟨0, 0, 0, 0⟩ := rfl
@[simp] theorem State.hardReset_k (s : State) : (s.hardReset).k = 0 := rfl
@[simp] theorem State.hardReset_nok (s : State) : (s.hardReset).nok = 0 := rfl
@[simp] theorem State.hardReset_stop (s : State) : (s.hardReset).stop = false := rfl
@[simp] theorem State.hardReset_ir (s : State) : (s.hardReset).ir = 0 := rfl
@[simp] theorem State.hardReset_cnt (s : State) : (s.hardReset).cnt = 0 := rfl
@[simp] theorem State.hardReset_breq (s : State) : (s.hardReset).breq = none := rfl
@[simp] theorem State.hardReset_treq (s : State) : (s.hardReset).treq = none := rfl
@[simp] theorem State.hardReset_rst (s : State) : (s.hardReset).rst = false := rfl
@[simp] theorem State.hardReset_cmdIn (s : State) : (s.hardReset).cmdIn = s.cmdIn := rfl
@[simp] theorem State.hardReset_plIn (s : State) : (s.hardReset).plIn = s.plIn := rfl
@[simp] theorem State.hardReset_busIn (s : State) : (s.hardReset).busIn = s.busIn := rfl
@[simp] theorem State.hardReset_busLate (s : State) : s.hardReset.busLate =
    if s.breq.isSome then s.busLate + 1 else s.busLate := rfl
@[simp] theorem State.hardReset_timerIn (s : State) : (s.hardReset).timerIn = s.timerIn := rfl
@[simp] theorem State.hardReset_timerLate (s : State) : s.hardReset.timerLate =
    if s.treq.isSome then s.timerLate + 1 else s.timerLate := rfl
@[simp] theorem State.hardReset_trace (s : State) : s.hardReset.trace =
    s.trace ++ (s.breq.map Event.busCut).toList ++ (s.treq.map Event.waitCut).toList := rfl
@[simp] theorem State.hardReset_rsps (s : State) : (s.hardReset).rsps = s.rsps := rfl

end Sys2Proof.Machine
end

