-- ==== Sys2Proof/Laws/Ops.lean ====
section
/-! SUPPORT. What each shared operation of Machine/Ops.lean can do, said once: the handshakes, admission and draining, one
transaction, a run, and the meaning of a command over them. -/

namespace Sys2Proof.Machine

variable {s t : State} {r : BusReq} {body micro : State → Option State} {i : Instr}
  {answered : BusReq → Byte → State → State} {next : Byte → State → State}

/-! ### Bit laws of the control registers -/

theorem readFs_writeFs (v : Byte) (s : State) : (s.writeFs v).readFs = v &&& liveFs := by
  simp [State.readFs, State.writeFs, BitVec.and_assoc]

theorem readDc_writeDc (v : Byte) (s : State) : (s.writeDc v).readDc = v &&& liveDc := by
  simp [State.readDc, State.writeDc, BitVec.and_assoc]

theorem readEm_writeEm (v : Byte) (s : State) : (s.writeEm v).readEm = v &&& liveEm := by
  simp [State.readEm, State.writeEm, BitVec.and_assoc]

/-- A read-modify-write through a live mask bit stays within the live bits. -/
theorem rmw_within {live mask : Byte} (hm : mask &&& live = mask) (x : Byte) (b : Bool) :
    rmw (x &&& live) mask b &&& live = rmw (x &&& live) mask b := by
  unfold rmw
  rw [BitVec.and_or_distrib_right]
  congr 1
  · ext j hj
    simp
    tauto
  · cases b <;> simp [hm]

theorem legalLines_iff (h : BitVec 3) : legalLines h = true ↔ 1 ≤ h.toNat ∧ h.toNat ≤ 4 := by
  have : Config.maxLines = 4 := rfl
  rw [legalLines, this]
  simp

/-! ### Handshakes -/

theorem transfer_of_answer {a : Byte} {rest : List Byte} (h : s.answers = a :: rest) :
    s.transfer r next = some (next a { s with
      breq := none, busIn := rest, busLate := 0, trace := s.trace ++ [.bus r a] }) := by
  simp [State.transfer, h]

theorem transfer_of_no_answer (h : s.answers = []) : s.transfer r next = none := by
  simp [State.transfer, h]

/-- Everything a bus exchange can do. -/
theorem transfer_cases (h : s.transfer r next = some t) :
    ∃ a rest, s.answers = a :: rest ∧
      t = next a { s with breq := none, busIn := rest, busLate := 0, trace := s.trace ++ [.bus r a] } := by
  unfold State.transfer at h
  split at h
  · cases h
  · rename_i a rest ha
    exact ⟨a, rest, ha, by simpa using h.symm⟩

theorem elapse_of_done {us : Half} {n : Nat} (h : s.dones = n + 1) :
    s.elapse us = some { s with
      treq := none, timerIn := n, timerLate := 0, upc := s.upc + 1, trace := s.trace ++ [.wait us] } := by
  simp [State.elapse, h]

theorem elapse_of_no_done {us : Half} (h : s.dones = 0) : s.elapse us = none := by
  simp [State.elapse, h]

/-- Everything the end of a wait can do. -/
theorem elapse_cases {us : Half} (h : s.elapse us = some t) :
    ∃ n, s.dones = n + 1 ∧
      t = { s with
        treq := none, timerIn := n, timerLate := 0, upc := s.upc + 1, trace := s.trace ++ [.wait us] } := by
  unfold State.elapse at h
  split at h
  · cases h
  · rename_i n hn
    exact ⟨n, hn, by simpa using h.symm⟩

/-- Everything `take()` can do. -/
theorem take_cases (h : s.take next = some t) :
    ∃ b rest, s.plIn = b :: rest ∧ t = next b { s with plIn := rest } := by
  unfold State.take at h
  split at h
  · cases h
  · rename_i b rest hp
    exact ⟨b, rest, hp, by simpa using h.symm⟩

/-- Everything one transaction of a rejection can do. -/
theorem drain_cases {st : Status} {len : Nat} (h : s.drain st len = some t) :
    (s.k.toNat < len ∧ ∃ b rest, s.plIn = b :: rest ∧ t = { s with plIn := rest, k := s.k + 1 }) ∨
      (len ≤ s.k.toNat ∧ t = s.raiseError st) := by
  unfold State.drain at h
  split at h
  · rename_i hk
    obtain ⟨b, rest, hp, rfl⟩ := take_cases h
    exact .inl ⟨hk, b, rest, hp, rfl⟩
  · rename_i hk
    exact .inr ⟨by omega, by simpa using h.symm⟩

/-- Everything the admission of a command can do. -/
theorem admission_cases (h : s.admission i = some t) :
    (i.wellFormed = true ∧ admitted i s.phase = true ∧ t = s.advance) ∨
      (i.wellFormed = true ∧ admitted i s.phase = false ∧ s.drain .errState (payloadLength i) = some t) ∨
      (i.wellFormed = false ∧ s.drain .errIllegal (payloadLength i) = some t) := by
  unfold State.admission at h
  split at h
  · rename_i hw
    split at h
    · rename_i ha
      exact .inl ⟨hw, ha, by simpa using h.symm⟩
    · rename_i ha
      exact .inr (.inl ⟨hw, by simpa using ha, h⟩)
  · rename_i hw
    exact .inr (.inr ⟨by simpa using hw, h⟩)

/-! ### One transaction and a run -/

theorem tick_bus (h : s.breq = some r) : tick body answered s = s.transfer r (answered r) := by
  simp [tick, h]

theorem tick_timer {us : Half} (hb : s.breq = none) (h : s.treq = some us) : tick body answered s = s.elapse us := by
  simp [tick, hb, h]

theorem tick_body (hb : s.breq = none) (ht : s.treq = none) : tick body answered s = body s := by
  simp [tick, hb, ht]

/-- Everything one transaction can do. -/
theorem tick_cases (h : tick body answered s = some t) :
    (∃ r, s.breq = some r ∧ s.transfer r (answered r) = some t) ∨
      (s.breq = none ∧ ∃ us, s.treq = some us ∧ s.elapse us = some t) ∨
      (s.breq = none ∧ s.treq = none ∧ body s = some t) := by
  unfold tick at h
  split at h
  · rename_i r hr
    exact .inl ⟨r, hr, h⟩
  · rename_i hr
    split at h
    · rename_i us hu
      exact .inr (.inl ⟨hr, us, hu, h⟩)
    · rename_i hu
      exact .inr (.inr ⟨hr, hu, h⟩)

theorem run_waits {n : Nat} (h : tick body answered s = none) : run body answered n s = s := by
  cases n <;> simp [run, h]

theorem run_goes_on {n : Nat} (h : tick body answered s = some t) (hb : t.busy = true) :
    run body answered (n + 1) s = run body answered n t := by
  simp [run, h, hb]

theorem run_ends {n : Nat} (h : tick body answered s = some t) (hb : t.busy = false) : run body answered (n + 1) s = t := by
  simp [run, h, hb]

/-- A run keeps what each of its transactions keeps: the induction over a run, once. -/
theorem run_keeps {P : State → Prop} (keeps : ∀ s t, P s → tick body answered s = some t → P t) :
    ∀ (n : Nat) (s : State), P s → P (run body answered n s)
  | 0, _, hs => hs
  | n + 1, s, hs => by
    unfold run
    split
    · exact hs
    · rename_i t ht
      split
      · exact run_keeps keeps n t (keeps s t hs ht)
      · exact keeps s t hs ht

/-- As `run_keeps`, for what a transaction keeps while the block is busy. -/
theorem run_keeps_busy {P : State → Prop} (keeps : ∀ s t, P s → s.busy = true → tick body answered s = some t → P t) :
    ∀ (n : Nat) (s : State), P s → s.busy = true → P (run body answered n s)
  | 0, _, hs, _ => hs
  | n + 1, s, hs, hb => by
    unfold run
    split
    · exact hs
    · rename_i t ht
      split
      · rename_i hbt
        exact run_keeps_busy keeps n t (keeps s t hs hb ht) hbt
      · exact keeps s t hs hb ht

/-! ### Commands -/

theorem runCommand_of_idle (h : s.busy = false) :
    runCommand i micro answered s =
      run (commandBody i micro) answered (runBound (payloadLength i)) (s.accept (commandWord i)) := by
  simp [runCommand, h]

theorem runCommand_of_running (h : s.busy = true) (hi : s.ir = commandWord i) :
    runCommand i micro answered s = run (commandBody i micro) answered (runBound (payloadLength i)) s := by
  simp [runCommand, h, hi]

theorem runCommand_of_other (h : s.busy = true) (hi : s.ir ≠ commandWord i) : runCommand i micro answered s = s := by
  simp [runCommand, h, hi]

/-- The meaning of a command keeps what acceptance and each transaction keep. -/
theorem runCommand_keeps {P : State → Prop} (accepts : ∀ s w, P s → P (s.accept w))
    (keeps : ∀ s t, P s → tick (commandBody i micro) answered s = some t → P t) (hs : P s) :
    P (runCommand i micro answered s) := by
  unfold runCommand
  split
  · split
    · exact run_keeps keeps _ _ hs
    · exact hs
  · exact run_keeps keeps _ _ (accepts _ _ hs)

end Sys2Proof.Machine
end

