-- ==== Sys2Proof/Laws/Micro.lean ====
section
/-! SUPPORT. What the micro-programs have in common, said once: how `exec` and the running command reach them, and what every
micro-operation leaves alone. -/

namespace Sys2Proof.Machine

variable {s t : State} {i : Instr} {w : Word}

/-! ### How a meaning reaches its micro-program -/

theorem exec_command (hc : i.isCommand = true) : exec i s = .next (runCommand i (microProgram i) (answeredOf i) s) := by
  cases i <;> first | rfl | cases hc

theorem exec_form {r : BusReq} (h : requestOf i = some r) : exec i s = .next (exchange r s) := by
  cases i <;> cases h <;> rfl

theorem bodyOfWord_ok (h : decodeCommand w = .ok i) : bodyOfWord w = commandBody i (microProgram i) := by
  unfold bodyOfWord
  simp [h]

theorem bodyOfWord_error {e : DecodeError} (h : decodeCommand w = .error e) :
    bodyOfWord w = State.drain .errIllegal (paylen w) := by
  unfold bodyOfWord
  simp [h]

/-! ### What a micro-operation leaves alone -/

/-- The fields no micro-operation writes: the reset line, the command port, what the adapter and the timer have ready, and
the trace; and the held word until the response. -/
def State.SameOutside (s t : State) : Prop :=
  t.rst = s.rst ∧ t.cmdIn = s.cmdIn ∧ t.busIn = s.busIn ∧ t.busLate = s.busLate ∧ t.timerIn = s.timerIn ∧
    t.timerLate = s.timerLate ∧ t.trace = s.trace ∧ (t.busy = true → t.ir = s.ir)

theorem request_sameOutside {r : BusReq} (h : s.request r = some t) : s.SameOutside t := by
  cases h
  exact ⟨rfl, rfl, rfl, rfl, rfl, rfl, rfl, fun _ => rfl⟩

theorem respond_sameOutside {st : Status} {v : Half} : s.SameOutside (s.respond st v) :=
  ⟨rfl, rfl, rfl, rfl, rfl, rfl, rfl, nofun⟩

theorem drain_sameOutside {st : Status} {len : Nat} (h : s.drain st len = some t) : s.SameOutside t := by
  obtain ⟨-, b, rest, -, rfl⟩ | ⟨-, rfl⟩ := drain_cases h
  · exact ⟨rfl, rfl, rfl, rfl, rfl, rfl, rfl, fun _ => rfl⟩
  · exact respond_sameOutside

theorem microInit_sameOutside {wd : BitVec 8} {h : BitVec 3} {p : Font} {m : TransferMode}
    (hm : microInit wd h p m s = some t) : s.SameOutside t := by
  unfold microInit at hm
  split at hm
  case h_12 =>
    split at hm
    · exact request_sameOutside hm
    · cases hm
      exact ⟨rfl, rfl, rfl, rfl, rfl, rfl, rfl, fun _ => rfl⟩
  all_goals
    first
    | (cases hm; done)
    | exact request_sameOutside hm
    | (cases hm; exact ⟨rfl, rfl, rfl, rfl, rfl, rfl, rfl, fun _ => rfl⟩)
    | (cases hm; exact ⟨rfl, rfl, rfl, rfl, rfl, rfl, rfl, nofun⟩)

theorem microPattern_sameOutside {slot : BitVec 3} (h : microPattern slot s = some t) : s.SameOutside t := by
  unfold microPattern at h
  split at h
  · cases h
  · exact request_sameOutside h
  · split at h
    · obtain ⟨b, rest, -, rfl⟩ := take_cases h
      exact ⟨rfl, rfl, rfl, rfl, rfl, rfl, rfl, fun _ => rfl⟩
    · cases h
      exact respond_sameOutside

theorem microWrite_sameOutside {len : BitVec 16} (h : microWrite len s = some t) : s.SameOutside t := by
  unfold microWrite at h
  split at h
  · cases h
    exact ⟨rfl, rfl, rfl, rfl, rfl, rfl, rfl, fun _ => rfl⟩
  · split at h
    · obtain ⟨b, rest, -, rfl⟩ := take_cases h
      unfold writeByte writeNext
      split <;> exact ⟨rfl, rfl, rfl, rfl, rfl, rfl, rfl, fun _ => rfl⟩
    · cases h
      exact ⟨rfl, rfl, rfl, rfl, rfl, rfl, rfl, fun _ => rfl⟩
  · cases h
    exact respond_sameOutside
  · cases h

theorem micro_sameOutside (h : microProgram i s = some t) : s.SameOutside t := by
  cases i with
  | init => exact microInit_sameOutside h
  | pattern => exact microPattern_sameOutside h
  | write => exact microWrite_sameOutside h
  | _ =>
    first
    | cases h
    | (simp only [microProgram, microDeinit, microClear, microHome, microSetcur, microShift, microTextdir,
        microAutoscroll, microDisplay, microCursor, microBlink, microEntryMode, microDisplayControl, microBlsup,
        microBlset, microBlget] at h
       split at h <;>
         first
         | (cases h; done)
         | exact request_sameOutside h
         | (cases h; exact ⟨rfl, rfl, rfl, rfl, rfl, rfl, rfl, fun _ => rfl⟩)
         | (cases h; exact ⟨rfl, rfl, rfl, rfl, rfl, rfl, rfl, nofun⟩))

/-- Whatever word the block holds. -/
theorem body_sameOutside (h : bodyOfWord w s = some t) : s.SameOutside t := by
  cases hd : decodeCommand w with
  | error e =>
    rw [bodyOfWord_error hd] at h
    exact drain_sameOutside h
  | ok i =>
    rw [bodyOfWord_ok hd] at h
    unfold commandBody at h
    split at h
    · obtain ⟨-, -, rfl⟩ | ⟨-, -, h⟩ | ⟨-, h⟩ := admission_cases h
      · exact ⟨rfl, rfl, rfl, rfl, rfl, rfl, rfl, fun _ => rfl⟩
      · exact drain_sameOutside h
      · exact drain_sameOutside h
    · exact micro_sameOutside h

/-! ### What an answer does -/

theorem answeredOfWord_ok (h : decodeCommand w = .ok i) : answeredOfWord w = answeredOf i := by
  unfold answeredOfWord
  simp [h]

theorem answeredOfWord_error {e : DecodeError} (h : decodeCommand w = .error e) :
    answeredOfWord w = State.dropAnswer := by
  unfold answeredOfWord
  simp [h]

/-- What any answer leaves alone, whatever command takes it. -/
theorem answeredOf_sameOutside (r : BusReq) (a : Byte) (s : State) : s.SameOutside (answeredOf i r a s) := by
  cases i with
  | init =>
    cases r
    case init =>
      simp only [answeredOf, initAnswered]
      split
      · exact ⟨rfl, rfl, rfl, rfl, rfl, rfl, rfl, fun _ => rfl⟩
      · exact ⟨rfl, rfl, rfl, rfl, rfl, rfl, rfl, nofun⟩
    all_goals exact ⟨rfl, rfl, rfl, rfl, rfl, rfl, rfl, fun _ => rfl⟩
  | pattern => cases r <;> exact ⟨rfl, rfl, rfl, rfl, rfl, rfl, rfl, fun _ => rfl⟩
  | _ => exact ⟨rfl, rfl, rfl, rfl, rfl, rfl, rfl, fun _ => rfl⟩

theorem answeredOfWord_sameOutside (r : BusReq) (a : Byte) (s : State) :
    s.SameOutside (answeredOfWord w r a s) := by
  cases hd : decodeCommand w with
  | error e =>
    rw [answeredOfWord_error hd]
    exact ⟨rfl, rfl, rfl, rfl, rfl, rfl, rfl, fun _ => rfl⟩
  | ok i =>
    rw [answeredOfWord_ok hd]
    exact answeredOf_sameOutside r a s

/-- R27: every answer to a command's request advances `UPC` by one, but in WRITE while bytes are left, whose loop keeps it
(R188), and but for the failed bus that ends INIT (R122). -/
theorem answeredOf_upc (hc : i.isCommand = true) (r : BusReq) (a : Byte) (s : State) :
    (answeredOf i r a s).upc = s.upc + 1 ∨
      ((∃ len, i = .write len ∧ s.k.toNat + 1 < len.toNat) ∧ (answeredOf i r a s).upc = s.upc) ∨
      (r = .init ∧ boolAnswer a = false ∧ (answeredOf i r a s).upc = 0 ∧ (answeredOf i r a s).busy = false) := by
  cases i with
  | init =>
    cases r
    case init =>
      simp only [answeredOf, initAnswered]
      split
      · exact .inl rfl
      · rename_i ha
        exact .inr (.inr ⟨trivial, by simpa using ha, rfl, rfl⟩)
    all_goals exact .inl rfl
  | pattern => cases r <;> exact .inl rfl
  | write len =>
    by_cases h : s.k.toNat + 1 < len.toNat
    · exact .inr (.inl ⟨⟨len, rfl, h⟩, if_pos h⟩)
    · exact .inl (if_neg h)
  | _ => first | exact .inl rfl | cases hc

/-- Everything the exchange of an emitted form can do. -/
theorem exchange_cases {r : BusReq} :
    exchange r s = s ∨ exchange r s = s.drive r ∨
      s.transfer r (if s.busy then answeredOfWord s.ir r else State.dropAnswer r) = some (exchange r s) := by
  unfold exchange
  split
  · cases h : s.transfer r (if s.busy then answeredOfWord s.ir r else State.dropAnswer r) with
    | none => exact .inr (.inl rfl)
    | some t => exact .inr (.inr rfl)
  · exact .inl rfl

/-! ### What a transaction leaves alone -/

/-- What one transaction of a running command leaves alone: the reset line and the command port, and the held word until
the response. -/
theorem tick_keeps (h : tick (bodyOfWord w) (answeredOfWord w) s = some t) :
    t.rst = s.rst ∧ t.cmdIn = s.cmdIn ∧ (t.busy = true → t.ir = s.ir) := by
  obtain ⟨r, -, h⟩ | ⟨-, us, -, h⟩ | ⟨-, -, h⟩ := tick_cases h
  · obtain ⟨a, rest, -, rfl⟩ := transfer_cases h
    obtain ⟨h1, h2, -, -, -, -, -, h3⟩ := answeredOfWord_sameOutside (w := w) r a
      { s with breq := none, busIn := rest, busLate := 0, trace := s.trace ++ [.bus r a] }
    exact ⟨h1, h2, h3⟩
  · obtain ⟨n, -, rfl⟩ := elapse_cases h
    exact ⟨rfl, rfl, fun _ => rfl⟩
  · obtain ⟨h1, h2, -, -, -, -, -, h3⟩ := body_sameOutside h
    exact ⟨h1, h2, h3⟩

end Sys2Proof.Machine
end

