-- ==== Sys2Proof/Laws/PerInstr.lean ====
section
/-! SUPPORT. The statements made per instruction. PayloadOfWord: the payload length the block reads from a command's word
alone (spec 30_encoding.md R102, `paylen`) is the payload length of the command. -/

namespace Sys2Proof.Laws

/-- `paylen` of the word of a command is the command's payload length (R102). -/
def PayloadOfWord.Statement (i : Instr) : Prop :=
  i.isCommand = true → paylen (commandWord i) = payloadLength i

/-- A word whose lowest byte is neither PATTERN's nor WRITE's carries no payload. -/
theorem paylen_of_other (op a b c : Byte) (hp : op.extractLsb' 0 5 ≠ 0x0C) (hw : op.extractLsb' 0 5 ≠ 0x0D) :
    paylen (commandWordOf op a b c) = 0 := by
  rw [paylen, opcode_commandWordOf, if_neg hp, if_neg hw]

theorem PayloadOfWord.init (w : BitVec 8) (h : BitVec 3) (p : Font) (m : TransferMode) : PayloadOfWord.Statement (.init w h p m) := fun _ => paylen_of_other _ _ _ _ (by decide) (by decide)

theorem PayloadOfWord.deinit : PayloadOfWord.Statement .deinit := fun _ => paylen_of_other _ _ _ _ (by decide) (by decide)

theorem PayloadOfWord.clear : PayloadOfWord.Statement .clear := fun _ => paylen_of_other _ _ _ _ (by decide) (by decide)

theorem PayloadOfWord.home : PayloadOfWord.Statement .home := fun _ => paylen_of_other _ _ _ _ (by decide) (by decide)

theorem PayloadOfWord.setcur (col : BitVec 8) (line : BitVec 8) : PayloadOfWord.Statement (.setcur col line) := fun _ => paylen_of_other _ _ _ _ (by decide) (by decide)

theorem PayloadOfWord.shift (r : ShiftDir) (co : Bool) : PayloadOfWord.Statement (.shift r co) := fun _ => paylen_of_other _ _ _ _ (by decide) (by decide)

theorem PayloadOfWord.textdir (d : TextDir) : PayloadOfWord.Statement (.textdir d) := fun _ => paylen_of_other _ _ _ _ (by decide) (by decide)

theorem PayloadOfWord.autoscroll (b : Bool) : PayloadOfWord.Statement (.autoscroll b) := fun _ => paylen_of_other _ _ _ _ (by decide) (by decide)

theorem PayloadOfWord.display (b : Bool) : PayloadOfWord.Statement (.display b) := fun _ => paylen_of_other _ _ _ _ (by decide) (by decide)

theorem PayloadOfWord.cursor (b : Bool) : PayloadOfWord.Statement (.cursor b) := fun _ => paylen_of_other _ _ _ _ (by decide) (by decide)

theorem PayloadOfWord.blink (b : Bool) : PayloadOfWord.Statement (.blink b) := fun _ => paylen_of_other _ _ _ _ (by decide) (by decide)

theorem PayloadOfWord.pattern (slot : BitVec 3) : PayloadOfWord.Statement (.pattern slot) := fun _ => by
  rw [commandWord, paylen, opcode_commandWordOf, if_pos (by decide)]
  rfl

theorem PayloadOfWord.write (len : BitVec 16) : PayloadOfWord.Statement (.write len) := fun _ => by
  rw [commandWord, paylen, opcode_commandWordOf, if_neg (by decide), if_pos (by decide), field_len_commandWordOf,
    length_bytes]
  rfl

theorem PayloadOfWord.blsup : PayloadOfWord.Statement .blsup := fun _ => paylen_of_other _ _ _ _ (by decide) (by decide)

theorem PayloadOfWord.blset (b : Bool) : PayloadOfWord.Statement (.blset b) := fun _ => paylen_of_other _ _ _ _ (by decide) (by decide)

theorem PayloadOfWord.blget : PayloadOfWord.Statement .blget := fun _ => paylen_of_other _ _ _ _ (by decide) (by decide)

theorem PayloadOfWord.lcdClear : PayloadOfWord.Statement .lcdClear := fun h => by cases h

theorem PayloadOfWord.lcdHome : PayloadOfWord.Statement .lcdHome := fun h => by cases h

theorem PayloadOfWord.lcdEntryMode (i : Bool) (s : Bool) : PayloadOfWord.Statement (.lcdEntryMode i s) := fun h => by cases h

theorem PayloadOfWord.lcdDisplayControl (d : Bool) (c : Bool) (b : Bool) : PayloadOfWord.Statement (.lcdDisplayControl d c b) := fun h => by cases h

theorem PayloadOfWord.lcdShift (s : Bool) (r : Bool) : PayloadOfWord.Statement (.lcdShift s r) := fun h => by cases h

theorem PayloadOfWord.lcdFunctionSet (l : Bool) (n : Bool) (f : Bool) : PayloadOfWord.Statement (.lcdFunctionSet l n f) := fun h => by cases h

theorem PayloadOfWord.lcdSetCgram (slot : BitVec 3) : PayloadOfWord.Statement (.lcdSetCgram slot) := fun h => by cases h

theorem PayloadOfWord.lcdSetDdram (addr : BitVec 7) : PayloadOfWord.Statement (.lcdSetDdram addr) := fun h => by cases h

theorem PayloadOfWord.lcdNibbleResync : PayloadOfWord.Statement .lcdNibbleResync := fun h => by cases h

theorem PayloadOfWord.lcdNibbleModefix : PayloadOfWord.Statement .lcdNibbleModefix := fun h => by cases h

theorem PayloadOfWord.lcdData (b : BitVec 8) : PayloadOfWord.Statement (.lcdData b) := fun h => by cases h

end Sys2Proof.Laws
end

