-- ==== Sys2Proof/Tests/Slice0.lean ====
section
/-! SUPPORT. The model's own tests: the decoding of one written-out word for every constructor (words assembled by hand from
spec 30_encoding.md R83 to R97), the well-formedness check, single steps against the vectors of spec 95_test_vectors.md, and
for every statement with hypotheses a state and operands that meet them. -/

namespace Sys2Proof.Tests

open Sys2Proof Sys2Proof.Machine

/-! ### Helpers -/

/-- A 16x2 display in READY as V-I1 leaves it, with the suggested narrow line table of R64 (`LAT_N` of 95_test_vectors.md). -/
def ready : State :=
  { State.reset with phase := .ready, tm := .eightBit, fs := 0x18, dc := 0x04, em := 0x02, lines := 2,
                     lat := ⟨0x00, 0x40, 0x10, 0x50⟩ }

/-- The environment presents a word, a payload, the adapter's answers and a number of timer dones. -/
def present (s : State) (w : Word) (payload answers : List Byte) (dones : Nat) : State :=
  { s with cmdIn := [w], plIn := payload, busIn := answers, timerIn := dones }

/-- The state after one step. -/
def after (s : State) : Option State :=
  match step s with
  | .next t => some t
  | .fault _ | .refused _ => none

/-- What a step shows outside: the trace and the response words. -/
def shown (s : State) : Option (List Event × List Word) := (after s).map fun t => (t.trace, t.rsps)

/-- The registers a step leaves, the line table apart. -/
def registers (s : State) : Option (Phase × TransferMode × Byte × Byte × Byte × BitVec 3) :=
  (after s).map fun t => (t.phase, t.tm, t.fs, t.dc, t.em, t.lines)

/-- `I:op` answered with a count. -/
def ins (op c : Byte) : Event := .bus (.instr op) c
/-- `D:b` answered with a count. -/
def dat (b c : Byte) : Event := .bus (.data b) c
/-- `N:n` answered with count 1. -/
def nib (n : BitVec 4) : Event := .bus (.nibble n) 1

/-! ### Decoding: one word for every constructor, field by field -/

/-- `C`, `B` = 000 M P H, `A` = W, `Z`, `OP`: INIT 16, 2, F5x8, M8. -/
theorem test_decode_init :
    decodeCommand 0b00000000_000_1_0_010_00010000_000_00001 = .ok (.init 16 2 .rows8 .eightBit) := rfl
theorem test_decode_init_font :
    decodeCommand 0b00000000_000_0_1_001_11111111_000_00001 = .ok (.init 255 1 .rows10 .fourBit) := rfl
theorem test_decode_deinit : decodeCommand 0b00000000_00000000_00000000_000_00010 = .ok .deinit := rfl
theorem test_decode_clear : decodeCommand 0b00000000_00000000_00000000_000_00011 = .ok .clear := rfl
theorem test_decode_home : decodeCommand 0b00000000_00000000_00000000_000_00100 = .ok .home := rfl
theorem test_decode_setcur : decodeCommand 0b00000000_00000001_10000101_000_00101 = .ok (.setcur 0x85 0x01) := rfl
theorem test_decode_shift_cursor :
    decodeCommand 0b00000000_00000000_000000_1_0_000_00110 = .ok (.shift .left true) := rfl
theorem test_decode_shift_right :
    decodeCommand 0b00000000_00000000_000000_0_1_000_00110 = .ok (.shift .right false) := rfl
theorem test_decode_textdir : decodeCommand 0b00000000_00000000_0000000_1_000_00111 = .ok (.textdir .leftToRight) := rfl
theorem test_decode_autoscroll : decodeCommand 0b00000000_00000000_0000000_1_000_01000 = .ok (.autoscroll true) := rfl
theorem test_decode_display : decodeCommand 0b00000000_00000000_0000000_1_000_01001 = .ok (.display true) := rfl
theorem test_decode_cursor : decodeCommand 0b00000000_00000000_0000000_1_000_01010 = .ok (.cursor true) := rfl
theorem test_decode_blink : decodeCommand 0b00000000_00000000_0000000_1_000_01011 = .ok (.blink true) := rfl
theorem test_decode_pattern : decodeCommand 0b00000000_00000000_00000_110_000_01100 = .ok (.pattern 6) := rfl
theorem test_decode_write : decodeCommand 0b00010010_00110100_00000000_000_01101 = .ok (.write 0x1234) := rfl
theorem test_decode_blsup : decodeCommand 0b00000000_00000000_00000000_000_01110 = .ok .blsup := rfl
theorem test_decode_blset : decodeCommand 0b00000000_00000000_0000000_1_000_01111 = .ok (.blset true) := rfl
theorem test_decode_blget : decodeCommand 0b00000000_00000000_00000000_000_10000 = .ok .blget := rfl
theorem test_decode_lcd_clear : decodeRequest (.instr 0b00000001) = .ok .lcdClear := rfl
theorem test_decode_lcd_home : decodeRequest (.instr 0b00000010) = .ok .lcdHome := rfl
theorem test_decode_lcd_entry_mode : decodeRequest (.instr 0b000001_1_0) = .ok (.lcdEntryMode true false) := rfl
theorem test_decode_lcd_display_control :
    decodeRequest (.instr 0b00001_1_0_0) = .ok (.lcdDisplayControl true false false) := rfl
theorem test_decode_lcd_display_control_low :
    decodeRequest (.instr 0b00001_0_0_1) = .ok (.lcdDisplayControl false false true) := rfl
theorem test_decode_lcd_shift : decodeRequest (.instr 0b0001_1_0_00) = .ok (.lcdShift true false) := rfl
theorem test_decode_lcd_function_set : decodeRequest (.instr 0b001_1_0_0_00) = .ok (.lcdFunctionSet true false false) := rfl
theorem test_decode_lcd_function_set_font :
    decodeRequest (.instr 0b001_0_0_1_00) = .ok (.lcdFunctionSet false false true) := rfl
theorem test_decode_lcd_set_cgram : decodeRequest (.instr 0b01_110_000) = .ok (.lcdSetCgram 6) := rfl
theorem test_decode_lcd_set_ddram : decodeRequest (.instr 0b1_1000101) = .ok (.lcdSetDdram 0x45) := rfl
theorem test_decode_lcd_nibble_resync : decodeRequest (.nibble 0b0011) = .ok .lcdNibbleResync := rfl
theorem test_decode_lcd_nibble_modefix : decodeRequest (.nibble 0b0010) = .ok .lcdNibbleModefix := rfl
theorem test_decode_lcd_data : decodeRequest (.data 0b11100000) = .ok (.lcdData 0xE0) := rfl

/-- V-X1 to V-X5, V-I15, V-I16, V-D5, V-H5: reserved codes and must-be-zero bits, each rejected by name. -/
theorem test_decode_reserved :
    decodeCommand 0x00000000 = .error .reservedOpcode ∧ decodeCommand 0x00000011 = .error .reservedOpcode ∧
    decodeCommand 0x0000001F = .error .reservedOpcode := ⟨rfl, rfl, rfl⟩
theorem test_decode_must_be_zero :
    decodeCommand 0x00000023 = .error .mustBeZero ∧ decodeCommand 0x000000E4 = .error .mustBeZero ∧
    decodeCommand 0x01121001 = .error .mustBeZero ∧ decodeCommand 0x00321001 = .error .mustBeZero ∧
    decodeCommand 0x00000102 = .error .mustBeZero ∧ decodeCommand 0x00000406 = .error .mustBeZero ∧
    decodeCommand 0x0000080C = .error .mustBeZero ∧ decodeCommand 0x0003010D = .error .mustBeZero :=
  ⟨rfl, rfl, rfl, rfl, rfl, rfl, rfl, rfl⟩
/-- V-I13, V-I14. -/
theorem test_decode_line_count :
    decodeCommand 0x00101001 = .error .lineCount ∧ decodeCommand 0x00151001 = .error .lineCount := ⟨rfl, rfl⟩
/-- R99: no read instruction, no shift or function set with bits 1:0 set, no CGRAM select with bits 2:0 set. -/
theorem test_decode_not_emitted :
    decodeRequest (.instr 0x00) = .error .notAnLcdForm ∧ decodeRequest (.instr 0x11) = .error .notAnLcdForm ∧
    decodeRequest (.instr 0x21) = .error .notAnLcdForm ∧ decodeRequest (.instr 0x41) = .error .notAnLcdForm ∧
    decodeRequest (.nibble 0x4) = .error .notAnLcdForm ∧ decodeRequest .init = .error .controlRequest :=
  ⟨rfl, rfl, rfl, rfl, rfl, rfl⟩

/-- The opcode table's rows are read as their instruction (R84, R94, R96), and an 8-bit value as the log says (entry 11). -/
theorem test_table_words :
    decodeTableWord 32 0x00000003 = some .clear ∧ decodeTableWord 16 0x0D = some (.write 0) ∧
    decodeTableWord 8 0x01 = some .lcdClear ∧ decodeTableWord 4 0x2 = some .lcdNibbleModefix ∧
    decodeTableWord 8 0x80 = some (.lcdSetDdram 0) ∧ decodeTableWord 8 0x00 = some (.lcdData 0) := by decide

/-- A placed word is what the next step runs: CLEAR in UNINIT (V-C6), and a clear-display byte on the bus port. -/
theorem test_fetch_word :
    (after (State.reset.withFetchWord 32 0x00000003)).map (·.rsps) = some [0x00000002] ∧
    (after ({ State.reset with busIn := [1] }.withFetchWord 8 0x01)).map (·.trace) = some [ins 0x01 1] := by decide

/-! ### Well-formedness -/

/-- D11: H = 0 and 5 to 7 are ill formed. -/
theorem test_ill_formed_line_counts :
    (Instr.init 16 0 .rows8 .eightBit).wellFormed = false ∧ (Instr.init 16 5 .rows8 .eightBit).wellFormed = false ∧
    (Instr.init 16 6 .rows8 .eightBit).wellFormed = false ∧ (Instr.init 16 7 .rows8 .eightBit).wellFormed = false := by
  decide
theorem test_well_formed_line_counts :
    (Instr.init 16 1 .rows8 .eightBit).wellFormed = true ∧ (Instr.init 16 4 .rows8 .eightBit).wellFormed = true := by
  decide

/-! ### Single steps, from 95_test_vectors.md -/

/-- V-I1: `T8(0x38)`. -/
theorem test_init_eight_bit :
    shown (present .reset 0x00121001 [] [1, 1, 1, 1, 1, 1, 1, 1, 1] 5) =
      some ([.bus .init 1, .bus (.negotiate .eightBit) 1, .wait 50000, ins 0x38 1, .wait 4500, ins 0x38 1, .wait 4500,
        ins 0x38 1, .wait 150, ins 0x38 1, ins 0x0C 1, ins 0x01 1, .wait 2000, ins 0x06 1], [0x00010000]) := by decide
/-- V-I4: `T4(0x24)`. -/
theorem test_init_four_bit :
    shown (present .reset 0x00091001 [] [1, 0, 1, 1, 1, 1, 1, 1, 1, 1] 5) =
      some ([.bus .init 1, .bus (.negotiate .fourBit) 0, .wait 50000, nib 0x3, .wait 4500, nib 0x3, .wait 4500,
        nib 0x3, .wait 150, nib 0x2, ins 0x24 1, ins 0x0C 1, ins 0x01 1, .wait 2000, ins 0x06 1], [0x00010000]) := by decide
/-- V-I7 and V-I6: the registers (3 lines set `N`; a 10-row font is dropped on two lines). -/
theorem test_init_registers :
    registers (present .reset 0x00030801 [] [1, 0, 1, 1, 1, 1, 1, 1, 1, 1] 5) =
      some (.ready, .fourBit, 0x08, 0x04, 0x02, 3) ∧
    registers (present .reset 0x001A1001 [] [1, 1, 1, 1, 1, 1, 1, 1, 1] 5) =
      some (.ready, .eightBit, 0x18, 0x04, 0x02, 2) := ⟨rfl, rfl⟩
/-- V-I8 and V-I7: the width class 17 and 8, each with the whole table of its class. -/
theorem test_init_line_table :
    (after (present .reset 0x00021101 [] [1, 0, 1, 1, 1, 1, 1, 1, 1, 1] 5)).map (·.lat) = some Config.lineBaseWide ∧
    (after (present .reset 0x00030801 [] [1, 0, 1, 1, 1, 1, 1, 1, 1, 1] 5)).map (·.lat) = some Config.lineBaseNarrow :=
  ⟨rfl, rfl⟩
/-- V-I12 and V-I17: a failed bus, and INIT in READY. -/
theorem test_init_errors :
    shown (present .reset 0x00121001 [] [0] 0) = some ([.bus .init 0], [0x00000003]) ∧
    shown (present ready 0x00121001 [] [1] 0) = some ([], [0x00000002]) := by decide
/-- V-D1 and V-D4. -/
theorem test_deinit :
    (after (present ready 0x00000002 [] [] 0)).map (fun t => (t.phase, t.rsps)) = some (.released, [0x00000000]) ∧
    shown (present { ready with phase := .released } 0x00000002 [] [] 0) = some ([], [0x00000002]) := by decide
/-- V-C3 and V-C2. -/
theorem test_clear :
    shown (present ready 0x00000003 [] [2] 1) = some ([ins 0x01 2, .wait 2000], [0x00020000]) ∧
    shown (present ready 0x00000003 [] [0] 1) = some ([ins 0x01 0, .wait 2000], [0x00000000]) := by decide
/-- V-C4. -/
theorem test_home : shown (present ready 0x00000004 [] [1] 1) = some ([ins 0x02 1, .wait 2000], [0x00010000]) := by decide
/-- V-S5 and V-S15: the clamp, and the wrap of the sum. -/
theorem test_setcur :
    shown (present ready 0x00FF0305 [] [1] 0) = some ([ins 0xC3 1], [0x00010000]) ∧
    shown (present ready 0x0001FF05 [] [1] 0) = some ([ins 0xBF 1], [0x00010000]) := by decide
/-- V-H2 and V-H3. -/
theorem test_shift :
    shown (present ready 0x00000306 [] [1] 0) = some ([ins 0x14 1], [0x00010000]) ∧
    shown (present ready 0x00000006 [] [1] 0) = some ([ins 0x18 1], [0x00010000]) := by decide
/-- V-E6 (the register is kept although its transfer fails) and V-E5 (an equal value is emitted again). -/
theorem test_textdir :
    (after (present ready 0x00000007 [] [0] 0)).map (fun t => (t.em, t.trace, t.rsps)) =
      some (0x00, [ins 0x04 0], [0x00000000]) ∧
    shown (present ready 0x00000107 [] [1] 0) = some ([ins 0x06 1], [0x00010000]) := by decide
/-- V-E2 and V-E4. -/
theorem test_autoscroll :
    shown (present { ready with em := 0x00 } 0x00000108 [] [1] 0) = some ([ins 0x05 1], [0x00010000]) ∧
    shown (present { ready with em := 0x03 } 0x00000008 [] [1] 0) = some ([ins 0x06 1], [0x00010000]) := by decide
/-- V-K3 and V-K4. -/
theorem test_display :
    shown (present { ready with dc := 0x07 } 0x00000009 [] [1] 0) = some ([ins 0x0B 1], [0x00010000]) ∧
    shown (present { ready with dc := 0x03 } 0x00000109 [] [1] 0) = some ([ins 0x0F 1], [0x00010000]) := by decide
/-- V-K1 and V-K5. -/
theorem test_cursor :
    shown (present ready 0x0000010A [] [1] 0) = some ([ins 0x0E 1], [0x00010000]) ∧
    shown (present { ready with dc := 0x07 } 0x0000000A [] [1] 0) = some ([ins 0x0D 1], [0x00010000]) := by decide
/-- V-K2 and V-K6. -/
theorem test_blink :
    shown (present { ready with dc := 0x06 } 0x0000010B [] [1] 0) = some ([ins 0x0F 1], [0x00010000]) ∧
    shown (present { ready with dc := 0x05 } 0x0000000B [] [1] 0) = some ([ins 0x0C 1], [0x00010000]) := by decide
/-- V-P4: no early stop, the select counts as one transfer. -/
theorem test_pattern :
    shown (present ready 0x0000020C [0x1F, 0x11, 0x11, 0x11, 0x11, 0x11, 0xE0, 0x00] [1, 1, 0, 1, 1, 1, 1, 1, 1] 0) =
      some ([ins 0x50 1, dat 0x1F 1, dat 0x11 0, dat 0x11 1, dat 0x11 1, dat 0x11 1, dat 0x11 1, dat 0xE0 1, dat 0x00 1],
        [0x00080000]) := by decide
/-- V-P8 and V-P7: a rejected PATTERN takes its payload. -/
theorem test_pattern_drained :
    (after (present .reset 0x0000000C [1, 2, 3, 4, 5, 6, 7, 8, 9] [] 0)).map (fun t => (t.plIn, t.rsps)) =
      some ([9], [0x00000002]) ∧
    (after (present ready 0x0000080C [1, 2, 3, 4, 5, 6, 7, 8, 9] [] 0)).map (fun t => (t.plIn, t.rsps)) =
      some ([9], [0x00000001]) := by decide
/-- V-W4 and V-W6: the stop at the first failure, and a count of 5 is one byte. -/
theorem test_write :
    (after (present ready 0x0003000D [0x41, 0x42, 0x43] [1, 0, 7] 0)).map (fun t => (t.trace, t.rsps, t.plIn, t.busIn)) =
      some ([dat 0x41 1, dat 0x42 0], [0x00010000], [], [7]) ∧
    shown (present ready 0x0001000D [0x41] [5] 0) = some ([dat 0x41 5], [0x00010000]) := by decide
/-- V-W8 and V-W7: a rejected WRITE takes its payload. -/
theorem test_write_drained :
    (after (present { ready with phase := .failed } 0x0001000D [0x41] [] 0)).map (fun t => (t.plIn, t.rsps)) =
      some ([], [0x00000002]) ∧
    (after (present ready 0x0003010D [1, 2, 3, 4] [] 0)).map (fun t => (t.plIn, t.rsps)) =
      some ([4], [0x00000001]) := by decide
/-- V-B2. -/
theorem test_blsup : shown (present ready 0x0000000E [] [0] 0) = some ([.bus .blSupported 0], [0x00000000]) := by decide
/-- V-B3 and V-B4. -/
theorem test_blset :
    shown (present ready 0x0000010F [] [0] 0) = some ([.bus (.blSet true) 0], [0x00000000]) ∧
    shown (present ready 0x0000000F [] [1] 0) = some ([.bus (.blSet false) 1], [0x00010000]) := by decide
/-- V-B5. -/
theorem test_blget : shown (present ready 0x00000010 [] [0xFF] 0) = some ([.bus .blGet 0xFF], [0x00010000]) := by decide
/-- R68 for a form of each request kind: one exchange, the answer in the trace. -/
theorem test_emitted_forms :
    (after { State.reset with breq := some (.instr 0x28), busIn := [3] }).map (fun t => (t.breq, t.trace)) =
      some (none, [ins 0x28 3]) ∧
    (after { State.reset with breq := some (.nibble 0x3), busIn := [1] }).map (fun t => (t.breq, t.trace)) =
      some (none, [nib 0x3]) ∧
    (after { State.reset with breq := some (.data 0x41), busIn := [0] }).map (fun t => (t.breq, t.trace)) =
      some (none, [dat 0x41 0]) := by decide
/-- R237 and D3: a command whose answer has not come stands at its request, and goes on when it comes. -/
theorem test_waits_for_answer :
    (after (present ready 0x0000010A [] [] 0)).map (fun t => (t.busy, t.upc, t.dc, t.breq, t.rsps)) =
      some (true, 2, 0x06, some (.instr 0x0E), []) := by decide
/-- R251: the cut request stays unanswered in the trace, its late answer is skipped, no response is driven. -/
theorem test_reset_during_command :
    (after { ready with rst := true, busy := true, ir := 0x0000010A, upc := 2, breq := some (.instr 0x0E),
                        busIn := [9, 1] }).map (fun t => (t.phase, t.busy, t.trace, t.rsps, t.answers)) =
      some (.uninit, false, [.busCut (.instr 0x0E)], [], [1]) := rfl

/-! ### Assembler text (R104) -/

theorem test_assemble_init : assemble "INIT 16, 2, F5x8, M8 ; 16x2".toList = some (0x00121001, []) := by decide
theorem test_assemble_write : assemble "WRITE \"AB\"".toList = some (0x0002000D, [0x41, 0x42]) := by decide

/-! ### Witnesses: states and operands that meet the hypotheses of each statement -/

/-- A READY state that meets the invariant: 16x2, 8-bit, the narrow table. -/
def configured : State := { ready with lat := Config.lineBaseNarrow }

theorem reset_idle : State.reset.Idle := ⟨rfl, rfl, rfl, rfl, rfl, rfl, rfl, rfl, rfl⟩

theorem ready_idle : ready.ReadyIdle := ⟨⟨rfl, rfl, rfl, rfl, rfl, rfl, rfl, rfl, rfl⟩, rfl⟩

theorem reset_inv : State.reset.Inv :=
  ⟨⟨rfl, rfl, rfl⟩, nofun, .inl rfl, fun _ => reset_idle.2, nofun⟩

theorem configured_inv : configured.Inv :=
  ⟨⟨rfl, rfl, rfl⟩, fun _ => ⟨.inl rfl, rfl, by decide, by decide, by decide, by decide⟩, .inl rfl,
    fun _ => ready_idle.1.2, nofun⟩

/-- CURSOR ON running at its emission, with its request on the bus port. -/
def running : State :=
  { ready with busy := true, ir := 0x0000010A, upc := 2, dc := 0x06, breq := some (.instr 0x0E), busIn := [1] }

/-- The same with the lines of `configured`. -/
def runningConfigured : State := { running with lat := Config.lineBaseNarrow }

theorem running_inv : runningConfigured.Inv :=
  ⟨⟨rfl, rfl, rfl⟩, fun _ => ⟨.inl rfl, rfl, by decide, by decide, by decide, by decide⟩, .inr rfl, nofun,
    fun _ => ⟨nofun, fun _ => ⟨.cursor true, rfl, rfl, trivial⟩⟩⟩

/-- CLEAR running in its wait. -/
def waiting : State := { ready with busy := true, ir := 0x00000003, upc := 2, cnt := 1, treq := some 2000 }

theorem witness_CommandEncodingRoundTrip :
    (Instr.init 255 4 .rows10 .eightBit).isCommand = true ∧ (Instr.init 255 4 .rows10 .eightBit).wellFormed = true ∧
    (Instr.init 0 1 .rows8 .fourBit).wellFormed = true ∧ (Instr.write 0xFFFF).isCommand = true := by decide

theorem witness_CommandWordIsUnique : decodeCommand 0x00141401 = .ok (.init 20 4 .rows8 .eightBit) := rfl

theorem witness_HardwareResetResetsEveryRegister :
    { running with rst := true }.rst = true ∧ { ready with rst := true }.breq = none ∧
    { ready with rst := true }.treq = none := by decide

/-- With the answer still to come, and with it there. -/
theorem witness_ResetDuringBusRequest :
    { running with rst := true, busIn := [] }.rst = true ∧
    { running with rst := true, busIn := [] }.breq = some (.instr 0x0E) ∧
    { running with rst := true, busIn := [] }.treq = none ∧ { running with rst := true }.answers = 1 :: [] := by decide

theorem witness_ResetDuringWait :
    { waiting with rst := true }.rst = true ∧ { waiting with rst := true }.breq = none ∧
    { waiting with rst := true }.treq = some 2000 := by decide

theorem witness_StepRunsPresentedCommand :
    (present ready 0x00000003 [] [1] 1).rst = false ∧ (present ready 0x00000003 [] [1] 1).busy = false ∧
    (present ready 0x00000003 [] [1] 1).breq = none ∧ (present ready 0x00000003 [] [1] 1).cmdIn = 0x00000003 :: [] ∧
    decodeCommand 0x00000003 = .ok .clear := ⟨rfl, rfl, rfl, rfl, rfl⟩

theorem witness_StepRunsEmittedForm :
    running.rst = false ∧ running.breq = some (.instr 0x0E) ∧
    decodeRequest (.instr 0x0E) = .ok (.lcdDisplayControl true true false) := ⟨rfl, rfl, rfl⟩

theorem witness_StepGoesOnWithRunningCommand :
    waiting.rst = false ∧ waiting.busy = true ∧ (∀ r j, waiting.breq = some r → decodeRequest r ≠ .ok j) ∧
    decodeCommand waiting.ir = .ok .clear := ⟨rfl, rfl, nofun, rfl⟩

theorem witness_BusyBlockAcceptsNoCommand : running.busy = true ∧ ∃ t, step running = .next t := ⟨rfl, _, rfl⟩

theorem witness_IdleBlockDoesNothing : ready.rst = false ∧ ready.Idle ∧ ready.cmdIn = [] := ⟨rfl, ready_idle.1, rfl⟩

theorem witness_UnansweredBlockHangs_bus :
    { running with busIn := [] }.rst = false ∧ { running with busIn := [] }.busy = true ∧
    { running with busIn := [] }.breq = some (.instr 0x0E) ∧ { running with busIn := [] }.answers = [] := by decide

theorem witness_UnansweredBlockHangs_timer :
    waiting.rst = false ∧ waiting.busy = true ∧ waiting.breq = none ∧ waiting.treq = some 2000 ∧ waiting.dones = 0 := by
  decide

/-- INIT at its third bring-up transfer, PATTERN at its select and at a row, WRITE at its second byte: each with its request on
the bus port and the answer there. -/
def runningInit : State :=
  { State.reset with busy := true, ir := 0x00121001, upc := 10, tm := .eightBit, fs := 0x18, lines := 2,
                     lat := Config.lineBaseNarrow, breq := some (.instr 0x38), busIn := [0] }
def runningSelect : State :=
  { ready with busy := true, ir := 0x0000070C, upc := 1, breq := some (.instr 0x78), busIn := [0] }
def runningRow : State :=
  { ready with busy := true, ir := 0x0000070C, upc := 3, k := 1, nok := 1, breq := some (.data 0x1F), busIn := [1] }
def runningWrite : State :=
  { ready with busy := true, ir := 0x0003000D, upc := 2, k := 1, nok := 1, breq := some (.data 0x42), plIn := [0x43],
               busIn := [0] }

/-- R27 with R170, R120, R181: the step that answers the request goes to the next step of the pseudocode, and the count is where
the pseudocode has it. R185, R188: WRITE stays at s2 while bytes are left, and `STOP` is set at the failure. -/
theorem test_answer_advances_upc :
    (after running).map (fun t => (t.upc, t.cnt, t.breq)) = some (3, 1, none) ∧
    (after runningInit).map (fun t => (t.upc, t.cnt, t.breq)) = some (11, 0, none) ∧
    (after runningSelect).map (fun t => (t.upc, t.k, t.nok)) = some (2, 0, 0) ∧
    (after runningRow).map (fun t => (t.upc, t.k, t.nok)) = some (4, 2, 2) ∧
    (after runningWrite).map (fun t => (t.upc, t.k, t.nok, t.stop)) = some (2, 2, 1, true) ∧
    (after { runningWrite with k := 2, nok := 2 }).map (fun t => (t.upc, t.k, t.nok, t.stop)) = some (3, 3, 2, true) := by
  decide

/-- R122: the answer false to `BusInit` ends INIT in the transaction that takes it. -/
theorem test_failed_bus_transaction :
    (fun t : State => (t.phase, t.busy, t.upc, t.rsps))
      (transaction { State.reset with busy := true, ir := 0x00121001, upc := 1, breq := some .init, busIn := [0] }) =
      (.failed, false, 0, [0x00000003]) := by decide

/-- An answered request, of another command and of WRITE with bytes left and at its last, and a wait that is done. -/
theorem witness_SequencerPointerAdvancesByOne :
    running.rst = false ∧ running.busy = true ∧ running.breq = some (.instr 0x0E) ∧ running.answers = 1 :: [] ∧
    decodeCommand running.ir = .ok (.cursor true) ∧ runningWrite.breq = some (.data 0x42) ∧
    runningWrite.answers = 0 :: [] ∧ decodeCommand runningWrite.ir = .ok (.write 3) ∧
    runningWrite.k.toNat + 1 < (3 : BitVec 16).toNat ∧
    (3 : BitVec 16).toNat ≤ { runningWrite with k := 2 }.k.toNat + 1 ∧
    { waiting with timerIn := 1 }.breq = none ∧ { waiting with timerIn := 1 }.treq = some 2000 ∧
    { waiting with timerIn := 1 }.dones = 0 + 1 := by decide

/-- A bus request outstanding, a wait outstanding, and none. -/
theorem witness_OneRequestAtATime :
    running.rst = false ∧ running.busy = true ∧ running.breq.isSome = true ∧
    waiting.rst = false ∧ waiting.busy = true ∧ waiting.treq.isSome = true ∧
    { running with breq := none }.busy = true ∧ { running with breq := none }.breq = none ∧
    { running with breq := none }.treq = none ∧
    (transaction { running with breq := none }).breq = some (.instr 0x0E) := by decide

theorem witness_IllegalWordIsAnswered :
    (present ready 0x0003010D [1, 2, 3] [] 0).rst = false ∧ (present ready 0x0003010D [1, 2, 3] [] 0).Idle ∧
    (present ready 0x0003010D [1, 2, 3] [] 0).cmdIn = 0x0003010D :: [] ∧
    decodeCommand 0x0003010D = .error .mustBeZero ∧
    paylen 0x0003010D ≤ (present ready 0x0003010D [1, 2, 3] [] 0).plIn.length :=
  ⟨rfl, ready_idle.1, rfl, rfl, by decide⟩

theorem witness_MisplacedCommandIsAnswered :
    State.reset.Idle ∧ Instr.clear.isCommand = true ∧ Instr.clear.wellFormed = true ∧
    admitted .clear State.reset.phase = false ∧ payloadLength .clear ≤ State.reset.plIn.length :=
  ⟨reset_idle, rfl, rfl, rfl, by decide⟩

theorem witness_AdmissionTable : (Instr.init 16 2 .rows8 .eightBit).isCommand = true ∧ Instr.deinit.isCommand = true ∧
    Instr.blget.isCommand = true := by decide

theorem witness_IllegalLineCountBeatsPhase :
    ready.Idle ∧ ((0 : BitVec 3) = 0 ∨ 5 ≤ (0 : BitVec 3).toNat) ∧ ((5 : BitVec 3) = 0 ∨ 5 ≤ (5 : BitVec 3).toNat) :=
  ⟨ready_idle.1, by decide, by decide⟩

theorem witness_InitFailsWithoutBus :
    { State.reset with busIn := [0] }.Idle ∧ { State.reset with busIn := [0] }.phase = .uninit ∧
    1 ≤ (1 : BitVec 3).toNat ∧ (4 : BitVec 3).toNat ≤ 4 ∧ { State.reset with busIn := [0] }.answers = 0 :: [] :=
  ⟨reset_idle, rfl, by decide, by decide, rfl⟩

theorem witness_InitRunsFourBitSequence :
    { State.reset with busIn := [1, 2, 0, 0, 0, 0, 0, 0, 0, 0], timerIn := 5 }.Idle ∧
    { State.reset with busIn := [1, 2, 0, 0, 0, 0, 0, 0, 0, 0], timerIn := 5 }.phase = .uninit ∧
    1 ≤ (1 : BitVec 3).toNat ∧ (1 : BitVec 3).toNat ≤ 4 ∧ (1 : Byte) ≠ 0 ∧ (2 : Byte).getLsbD 0 = false ∧
    { State.reset with busIn := [1, 2, 0, 0, 0, 0, 0, 0, 0, 0], timerIn := 5 }.answers =
      [1, 2, 0, 0, 0, 0, 0, 0, 0, 0] ++ [] ∧
    { State.reset with busIn := [1, 2, 0, 0, 0, 0, 0, 0, 0, 0], timerIn := 5 }.dones = 0 + 5 :=
  ⟨reset_idle, rfl, by decide, by decide, by decide, by decide, rfl, rfl⟩

theorem witness_InitRunsEightBitSequence :
    { State.reset with busIn := [1, 1, 1, 1, 1, 1, 1, 1, 1], timerIn := 5 }.Idle ∧
    { State.reset with busIn := [1, 1, 1, 1, 1, 1, 1, 1, 1], timerIn := 5 }.phase = .uninit ∧
    1 ≤ (4 : BitVec 3).toNat ∧ (4 : BitVec 3).toNat ≤ 4 ∧ (1 : Byte) ≠ 0 ∧ (1 : Byte).getLsbD 0 = true ∧
    { State.reset with busIn := [1, 1, 1, 1, 1, 1, 1, 1, 1], timerIn := 5 }.answers =
      [1, 1, 1, 1, 1, 1, 1, 1, 1] ++ [] ∧
    { State.reset with busIn := [1, 1, 1, 1, 1, 1, 1, 1, 1], timerIn := 5 }.dones = 0 + 5 :=
  ⟨reset_idle, rfl, by decide, by decide, by decide, by decide, rfl, rfl⟩

theorem witness_DeinitReleases :
    State.reset.Idle ∧ State.reset.phase ≠ .released ∧ ready.Idle ∧ ready.phase ≠ .released :=
  ⟨reset_idle, by decide, ready_idle.1, by decide⟩

theorem witness_ClearAndHomeEmitAndWait :
    { ready with busIn := [0], timerIn := 1 }.ReadyIdle ∧ { ready with busIn := [0], timerIn := 1 }.answers = 0 :: [] ∧
    { ready with busIn := [0], timerIn := 1 }.dones = 0 + 1 := ⟨ready_idle, rfl, rfl⟩

theorem witness_SetcurEmitsLineAddress :
    { ready with busIn := [1] }.ReadyIdle ∧ { ready with busIn := [1] }.LegalLines ∧
    { ready with busIn := [1] }.answers = 1 :: [] ∧ { ready with lines := 1 }.LegalLines ∧
    { ready with lines := 4 }.LegalLines :=
  ⟨ready_idle, ⟨by decide, by decide⟩, rfl, ⟨by decide, by decide⟩, ⟨by decide, by decide⟩⟩

theorem witness_LineClampStaysInTable :
    1 ≤ (1 : BitVec 3).toNat ∧ (1 : BitVec 3).toNat ≤ 4 ∧ (1 : BitVec 3).toNat ≤ (255 : BitVec 8).toNat ∧
    1 ≤ (4 : BitVec 3).toNat ∧ (4 : BitVec 3).toNat ≤ 4 ∧ (4 : BitVec 3).toNat ≤ (4 : BitVec 8).toNat := by decide

/-- Of ShiftEmitsScopeAndDirection, EntryModeCommandsMutateAndEmit, DisplayCommandsMutateAndEmit and
BacklightCommandsForward. -/
theorem witness_ready_with_answer :
    { ready with busIn := [0, 1] }.ReadyIdle ∧ { ready with busIn := [0, 1] }.answers = 0 :: [1] := ⟨ready_idle, rfl⟩

theorem witness_ReadModifyWriteBits : 0 < 8 ∧ 7 < 8 := by decide

theorem witness_RegisterCommandsIsolateBits :
    (∃ t, exec (.textdir .rightToLeft) { ready with busIn := [1] } = .next t) ∧
    (∃ t, exec (.autoscroll true) { ready with busIn := [1] } = .next t) ∧
    (∃ t, exec (.display false) { ready with busIn := [1] } = .next t) ∧
    (∃ t, exec (.cursor true) { ready with busIn := [1] } = .next t) ∧
    (∃ t, exec (.blink true) { ready with busIn := [1] } = .next t) :=
  ⟨⟨_, rfl⟩, ⟨_, rfl⟩, ⟨_, rfl⟩, ⟨_, rfl⟩, ⟨_, rfl⟩⟩

theorem witness_RegisterCommandsCommuteInValueOnly :
    { ready with busIn := [1, 1] }.ReadyIdle ∧ { ready with busIn := [1, 1] }.answers = 1 :: 1 :: [] ∧
    entryModeCommand (.textdir .rightToLeft) = some (0x02, false) ∧ entryModeCommand (.autoscroll true) = some (0x01, true) ∧
    (0x02 : Byte) ≠ 0x01 ∧ displayControlCommand (.display false) = some (0x04, false) ∧
    displayControlCommand (.blink true) = some (0x01, true) ∧ (0x04 : Byte) ≠ 0x01 ∧
    { ready with busIn := [1, 1] }.dc = 0x04 :=
  ⟨ready_idle, rfl, rfl, rfl, by decide, rfl, rfl, by decide, rfl⟩

theorem witness_PatternSendsEveryRow :
    { ready with plIn := [1, 2, 3, 4, 5, 6, 7, 8], busIn := [0, 1, 1, 0, 1, 1, 1, 1, 1] }.ReadyIdle ∧
    [1, 2, 3, 4, 5, 6, 7, (8 : Byte)].length = 8 ∧ [1, 1, 0, 1, 1, 1, 1, (1 : Byte)].length = 8 ∧
    { ready with plIn := [1, 2, 3, 4, 5, 6, 7, 8], busIn := [0, 1, 1, 0, 1, 1, 1, 1, 1] }.plIn =
      [1, 2, 3, 4, 5, 6, 7, 8] ++ [] ∧
    { ready with plIn := [1, 2, 3, 4, 5, 6, 7, 8], busIn := [0, 1, 1, 0, 1, 1, 1, 1, 1] }.answers =
      0 :: [1, 1, 0, 1, 1, 1, 1, 1] ++ [] := ⟨ready_idle, rfl, rfl, rfl, rfl⟩

/-- Both ends of WRITE: a failure at the first byte, and no failure. -/
theorem witness_WriteStopsAtFirstFailure :
    { ready with plIn := [0x41, 0x42], busIn := [0] }.ReadyIdle ∧ 0 < (2 : BitVec 16).toNat ∧
    (2 : BitVec 16).toNat ≤ { ready with plIn := [0x41, 0x42], busIn := [0] }.plIn.length ∧
    bytesSent (2 : BitVec 16).toNat { ready with plIn := [0x41, 0x42], busIn := [0] }.answers ≤
      { ready with plIn := [0x41, 0x42], busIn := [0] }.answers.length ∧
    bytesSent (2 : BitVec 16).toNat { ready with plIn := [0x41, 0x42], busIn := [1, 1] }.answers ≤
      { ready with plIn := [0x41, 0x42], busIn := [1, 1] }.answers.length :=
  ⟨ready_idle, by decide, by decide, by decide, by decide⟩

theorem witness_EmptyWriteRespondsZero : ready.ReadyIdle := ready_idle

theorem witness_EmittedFormIsOneExchange :
    (requestOf (.lcdDisplayControl true true false) = some (.instr 0x0E) ∧ running.answers = 1 :: [] ∧
      running.busy = true ∧ running.breq = some (.instr 0x0E) ∧ decodeCommand running.ir = .ok (.cursor true)) ∧
    (requestOf (.lcdFunctionSet true true false) = runningInit.breq ∧ runningInit.answers = 0 :: [] ∧
      decodeCommand runningInit.ir = .ok (.init 16 2 .rows8 .eightBit)) ∧
    (requestOf (.lcdSetCgram 7) = runningSelect.breq ∧ runningSelect.answers = 0 :: [] ∧
      decodeCommand runningSelect.ir = .ok (.pattern 7)) ∧
    (requestOf (.lcdData 0x1F) = runningRow.breq ∧ runningRow.answers = 1 :: []) ∧
    (requestOf (.lcdData 0x42) = runningWrite.breq ∧ runningWrite.answers = 0 :: [] ∧
      decodeCommand runningWrite.ir = .ok (.write 3)) ∧ ready.Idle :=
  ⟨⟨rfl, rfl, rfl, rfl, rfl⟩, ⟨rfl, rfl, rfl⟩, ⟨rfl, rfl, rfl⟩, ⟨rfl, rfl⟩, ⟨rfl, rfl, rfl⟩, ready_idle.1⟩

theorem witness_TransferCommandsKeepRegisters :
    (∃ t, exec .clear { ready with busIn := [1], timerIn := 1 } = .next t) ∧
    (∃ t, exec (.setcur 3 255) { ready with busIn := [1] } = .next t) ∧ (∃ t, exec (.write 0) ready = .next t) :=
  ⟨⟨_, rfl⟩, ⟨_, rfl⟩, ⟨_, rfl⟩⟩

theorem witness_EmittedFormsKeepRegisters :
    ((Instr.lcdData 0x41).isCommand = false ∧ ready.busy = false ∧
      ∃ t, exec (.lcdData 0x41) { ready with busIn := [1] } = .next t) ∧
    (∃ t, exec (.lcdData 0x42) runningWrite = .next t) ∧ runningWrite.busy = true ∧
    runningWrite.breq = requestOf (.lcdData 0x42) ∧ runningWrite.answers ≠ [] ∧
    decodeCommand runningWrite.ir = .ok (.write 3) ∧
    (∃ t, exec (.lcdDisplayControl true true false) running = .next t) ∧
    running.breq = requestOf (.lcdDisplayControl true true false) ∧ decodeCommand running.ir = .ok (.cursor true) :=
  ⟨⟨rfl, rfl, _, rfl⟩, ⟨_, rfl⟩, rfl, rfl, by decide, rfl, ⟨_, rfl⟩, rfl, rfl⟩

theorem witness_InitAndDeinitFrames :
    (∃ t, exec .deinit ready = .next t) ∧ ∃ t, exec (.init 16 2 .rows8 .eightBit) .reset = .next t :=
  ⟨⟨_, rfl⟩, _, rfl⟩

/-- From reset, in READY between commands, and within a command. -/
theorem witness_StepKeepsInvariant :
    (State.reset.Inv ∧ ∃ t, step .reset = .next t) ∧ (configured.Inv ∧ ∃ t, step configured = .next t) ∧
    (runningConfigured.Inv ∧ ∃ t, step runningConfigured = .next t) :=
  ⟨⟨reset_inv, _, rfl⟩, ⟨configured_inv, _, rfl⟩, running_inv, _, rfl⟩

theorem witness_StepEmitsOnlyClosedSet :
    runningConfigured.Inv ∧ runningConfigured.EmitsClosed ∧ ∃ t, step runningConfigured = .next t :=
  ⟨running_inv, ⟨nofun, fun _ h => by cases h; rfl, nofun⟩, _, rfl⟩

theorem witness_PhaseMovesLegally :
    (present .reset 0x00000002 [] [] 0).Inv ∧ (present .reset 0x00000002 [] [] 0).rst = false ∧
    ∃ t, step (present .reset 0x00000002 [] [] 0) = .next t := ⟨reset_inv, rfl, _, rfl⟩

theorem witness_ConfigurationIsImmutableInReady :
    runningConfigured.Inv ∧ runningConfigured.rst = false ∧ runningConfigured.phase = .ready ∧
    ∃ t, step runningConfigured = .next t := ⟨running_inv, rfl, rfl, _, rfl⟩

end Sys2Proof.Tests
end

section
/-! The read-modify-write of R13, bit by bit. -/

namespace Sys2Proof.Machine

/-- Holds for a mask of any bits, so also for the literal masks of the register commands. Above bit 7 both sides are
`false`. -/
theorem getLsbD_rmw (x mask : Byte) (b : Bool) (j : Nat) :
    (rmw x mask b).getLsbD j = if mask.getLsbD j then b else x.getLsbD j := by
  by_cases hj : j < 8
  · simp only [BitVec.getLsbD_eq_getElem hj]
    cases hm : mask[j] <;> cases b <;> simp [rmw, hm]
  · have outside (y : Byte) : y.getLsbD j = false := BitVec.getLsbD_of_ge y j (by omega)
    simp [outside]

theorem getLsbD_one_shiftLeft {n : Nat} (hn : n < 8) (j : Nat) :
    ((1 : Byte) <<< n).getLsbD j = decide (j = n) := by
  change (BitVec.twoPow 8 n).getLsbD j = decide (j = n)
  simp [BitVec.getLsbD_twoPow, hn, eq_comm]

/-- Settles O40: the bit law of `rmw`, at the mask whose only bit is `n`. -/
theorem readModifyWriteBits : Obligations.ReadModifyWriteBits := by
  intro x n b j hn
  rw [getLsbD_rmw, getLsbD_one_shiftLeft hn]
  simp only [decide_eq_true_eq]

end Sys2Proof.Machine
end

section
/-! The command decoder on the command words (R83 to R86, R101): what it accepts is a well-formed command, and the word of a
well-formed command decodes to it. -/

namespace Sys2Proof

theorem commandRow_isCommand {op : Nat} {w : Word} {row : CommandRow} (h : commandRow op w = some row) :
    row.instr.isCommand = true := by
  unfold commandRow at h
  split at h <;> cases h <;> rfl

theorem decodeCommand_ok {w : Word} {i : Instr} (h : decodeCommand w = .ok i) :
    i.isCommand = true ∧ i.wellFormed = true := by
  unfold decodeCommand at h
  split at h
  · cases h
  · rename_i row hrow
    split at h
    · split at h
      · rename_i hw
        cases h
        exact ⟨commandRow_isCommand hrow, hw⟩
      · cases h
    · cases h

/-- What a bus request carries is no command. -/
theorem decodeRequest_ok {r : BusReq} {i : Instr} (h : decodeRequest r = .ok i) : i.isCommand = false := by
  cases r with
  | instr op =>
    simp only [decodeRequest, decodeLcdByte] at h
    split_ifs at h <;> cases h <;> rfl
  | nibble n =>
    simp only [decodeRequest, decodeLcdNibble] at h
    split_ifs at h <;> cases h <;> rfl
  | data b => cases h; rfl
  | init | negotiate | blSupported | blSet | blGet => cases h

theorem decodeCommand_of_row {w : Word} {row : CommandRow} (hr : commandRow (opcode w).toNat w = some row)
    (hm : w &&& row.mask = row.pattern) (hw : row.instr.wellFormed = true) : decodeCommand w = .ok row.instr := by
  simp [decodeCommand, hr, hm, hw]

/-- The fields of INIT's operand byte `B` (R86). -/
theorem initByteB_fields (h : BitVec 3) (p : Font) (m : TransferMode) :
    (initByteB h p m).extractLsb' 0 3 = h ∧ fontOfBit ((initByteB h p m).getLsbD 3) = p ∧
      modeOfBit ((initByteB h p m).getLsbD 4) = m ∧ initByteB h p m &&& 0xE0 = 0 := by
  revert h
  cases p <;> cases m <;> decide

theorem decodeCommand_init (w : BitVec 8) (h : BitVec 3) (p : Font) (m : TransferMode) (hl : legalLines h = true) :
    decodeCommand (commandWord (.init w h p m)) = .ok (.init w h p m) := by
  obtain ⟨hh, hp, hm, hz⟩ := initByteB_fields h p m
  have hbits (i : Nat) (hi : i < 8) :
      (commandWord (.init w h p m)).getLsbD (16 + i) = (initByteB h p m).getLsbD i := by
    rw [commandWord, commandWordOf_bit, if_neg (by omega), if_neg (by omega), if_pos (by omega), Nat.add_sub_cancel_left]
  have hlines : field (commandWord (.init w h p m)) 16 3 = h := by
    refine Eq.trans (BitVec.eq_of_getLsbD_eq fun i hi => ?_) hh
    simp only [field, BitVec.getLsbD_extractLsb', hbits i (by omega), Nat.zero_add]
  refine decodeCommand_of_row (row := ⟨0xFFE000FF, 0x01, .init w h p m⟩) ?_ ?_ hl
  · rw [show (opcode (commandWord (.init w h p m))).toNat = 1 by rw [commandWord, opcode_commandWordOf]; rfl]
    simp only [commandRow, hlines, wordBit, hbits 3 (by omega), hbits 4 (by omega), hp, hm,
      show field (commandWord (.init w h p m)) 8 8 = w from field_a_commandWordOf _ _ _ _]
  · exact (commandWordOf_and _ _ _ _ 0xFF 0 0xE0 0xFF).trans (by
      rw [hz]
      simp only [BitVec.ofNat_eq_ofNat, BitVec.and_zero]
      rfl)

theorem decodeCommand_setcur (col line : BitVec 8) :
    decodeCommand (commandWord (.setcur col line)) = .ok (.setcur col line) := by
  refine decodeCommand_of_row (row := ⟨0xFF0000FF, 0x05, .setcur col line⟩) ?_ ?_ rfl
  · rw [commandWord, opcode_commandWordOf]
    change some (CommandRow.mk _ _ (.setcur (field _ 8 8) (field _ 16 8))) = _
    rw [field_a_commandWordOf, field_b_commandWordOf]
  · exact (commandWordOf_and _ _ _ _ 0xFF 0 0 0xFF).trans (by simp only [BitVec.ofNat_eq_ofNat, BitVec.and_zero]; rfl)

theorem decodeCommand_write (len : BitVec 16) : decodeCommand (commandWord (.write len)) = .ok (.write len) := by
  refine decodeCommand_of_row (row := ⟨0x0000FFFF, 0x0D, .write len⟩) ?_ ?_ rfl
  · rw [commandWord, opcode_commandWordOf]
    change some (CommandRow.mk _ _ (.write (field _ 16 16))) = _
    rw [field_len_commandWordOf, length_bytes]
  · exact (commandWordOf_and _ _ _ _ 0xFF 0xFF 0 0).trans (by simp only [BitVec.ofNat_eq_ofNat, BitVec.and_zero]; rfl)

/-- R101: decoding the word of a well-formed command gives the command back. -/
theorem decodeCommand_commandWord {i : Instr} (hc : i.isCommand = true) (hw : i.wellFormed = true) :
    decodeCommand (commandWord i) = .ok i := by
  cases i with
  | init w h p m => exact decodeCommand_init w h p m hw
  | setcur col line => exact decodeCommand_setcur col line
  | write len => exact decodeCommand_write len
  | deinit | clear | home | blsup | blget => rfl
  | shift r co => cases r <;> cases co <;> rfl
  | textdir d => cases d <;> rfl
  | autoscroll b | display b | cursor b | blink b | blset b => cases b <;> rfl
  | pattern slot => revert slot; decide
  | _ => cases hc

end Sys2Proof
end

section
/-! What one transaction of a command can do, said once: a part on the ports, then a part on the registers. -/

namespace Sys2Proof

/-- The commands whose micro-programs write no register that persists between commands (R37, R191, R205). -/
def Instr.isTransfer : Instr → Bool
  | .clear | .home | .setcur _ _ | .shift _ _ | .pattern _ | .write _ | .blsup | .blset _ | .blget => true
  | _ => false

/-- INIT, the only command that writes the configuration (R120). -/
def Instr.isInit : Instr → Bool
  | .init _ _ _ _ => true
  | _ => false

namespace Machine

variable {i : Instr} {s t u : State}

theorem exists_of_isInit (hi : i.isInit = true) : ∃ w l p m, i = .init w l p m := by
  cases i with
  | init w l p m => exact ⟨w, l, p, m, rfl⟩
  | _ => cases hi

/-- What a transaction can do to the registers: a micro-operation, the completion of one by its answer or its wait, or a
transaction of the admission. Which command it belongs to says which registers it can write. -/
inductive MicroOp (i : Instr) (s : State) : State → Prop
  | goOn (upc : Nat) (plIn : List Byte) (k nok : Half) (stop : Bool) (cnt : Byte)
      (h : upc = s.upc ∨ upc = s.upc + 1) :
      MicroOp i s { s with upc := upc, plIn := plIn, k := k, nok := nok, stop := stop, cnt := cnt }
  | request (r : BusReq) (plIn : List Byte) : MicroOp i s ({ s with plIn := plIn }.drive r)
  | wait (us : Half) : MicroOp i s { s with treq := some us }
  | respond (st : Status) (val : Half) : MicroOp i s (s.respond st val)
  | writeDc (v : Byte) (hi : i.isTransfer = false) : MicroOp i s (s.writeDc v).advance
  | writeEm (v : Byte) (hi : i.isTransfer = false) : MicroOp i s (s.writeEm v).advance
  | writeTm (m : TransferMode) (hi : i.isInit = true) : MicroOp i s { s with tm := m }.advance
  | writeFs (v : Byte) (hi : i.isInit = true) : MicroOp i s (s.writeFs v).advance
  | writeGeometry (h : BitVec 3) (l : LineTable) (hi : i.isInit = true) : MicroOp i s (s.writeGeometry h l).advance
  | endInit (p : Phase) (st : Status) (val : Half) (hi : i.isInit = true) (hp : p = .ready ∨ p = .failed) :
      MicroOp i s ({ s with phase := p }.respond st val)
  | release (hi : i = .deinit) : MicroOp i s ({ s with phase := .released }.respond .ok 0)

/-! ### Every transaction is one of them -/

theorem MicroOp.advance : MicroOp i s s.advance := .goOn _ _ _ _ _ _ (.inr rfl)

theorem microOp_of_request {r : BusReq} (h : s.request r = some t) : MicroOp i s t := by
  cases h
  exact .request r s.plIn

theorem microOp_of_wait {us : Half} (h : s.wait us = some t) : MicroOp i s t := by
  cases h
  exact .wait us

theorem microOp_of_advance (h : some s.advance = some t) : MicroOp i s t := by
  cases h
  exact .advance

theorem microOp_of_respond {st : Status} {val : Half} (h : some (s.respond st val) = some t) : MicroOp i s t := by
  cases h
  exact .respond st val

/-- Draining a payload takes one byte or drives the error response, for whatever word (R222). -/
theorem microOp_of_drain {st : Status} {len : Nat} (h : s.drain st len = some t) : MicroOp i s t := by
  obtain ⟨-, b, rest, -, rfl⟩ | ⟨-, rfl⟩ := drain_cases h
  · exact .goOn s.upc rest (s.k + 1) s.nok s.stop s.cnt (.inl rfl)
  · exact .respond st 0

/-- Admission goes on or drains, for whatever command: it writes no register. -/
theorem microOp_of_admission {j : Instr} (h : s.admission j = some t) : MicroOp i s t := by
  obtain ⟨-, -, rfl⟩ | ⟨-, -, h⟩ | ⟨-, h⟩ := admission_cases h
  · exact .advance
  · exact microOp_of_drain h
  · exact microOp_of_drain h

theorem microOp_of_microInit {w : BitVec 8} {h : BitVec 3} {p : Font} {m : TransferMode}
    (hm : microInit w h p m s = some t) : MicroOp (.init w h p m) s t := by
  unfold microInit at hm
  split at hm
  case h_3 => cases hm; exact .writeFs _ rfl
  case h_4 => cases hm; exact .writeGeometry _ _ rfl
  case h_12 =>
    split at hm
    · exact microOp_of_request hm
    · exact microOp_of_advance hm
  case h_14 => cases hm; exact .writeDc _ rfl
  case h_18 => cases hm; exact .writeEm _ rfl
  case h_20 => cases hm; exact .endInit _ _ _ rfl (.inl rfl)
  case h_21 => cases hm
  case h_5 | h_7 | h_9 | h_11 | h_17 => exact microOp_of_wait hm
  all_goals exact microOp_of_request hm

theorem microOp_of_microPattern {slot : BitVec 3} (h : microPattern slot s = some t) : MicroOp i s t := by
  unfold microPattern at h
  split at h
  · cases h
  · exact microOp_of_request h
  · split at h
    · obtain ⟨b, rest, -, rfl⟩ := take_cases h
      exact .request (.data b) rest
    · exact microOp_of_respond h

theorem microOp_of_microWrite {len : BitVec 16} (h : microWrite len s = some t) : MicroOp i s t := by
  unfold microWrite at h
  split at h
  · cases h
    exact .goOn (s.upc + 1) s.plIn 0 0 false s.cnt (.inr rfl)
  · split at h
    · obtain ⟨b, rest, -, rfl⟩ := take_cases h
      unfold writeByte
      split
      · refine .goOn _ rest (s.k + 1) s.nok s.stop s.cnt ?_
        split
        · exact .inl rfl
        · exact .inr rfl
      · exact .request (.data b) rest
    · exact microOp_of_advance h
  · exact microOp_of_respond h
  · cases h

/-- R160 with X = `EM`. -/
theorem microOp_of_microEntryMode {mask : Byte} {b : Bool} (hi : i.isTransfer = false)
    (h : microEntryMode mask b s = some t) : MicroOp i s t := by
  unfold microEntryMode at h
  split at h
  · cases h
    exact .writeEm _ hi
  · exact microOp_of_request h
  · exact microOp_of_respond h
  · cases h

/-- R160 with X = `DC`. -/
theorem microOp_of_microDisplayControl {mask : Byte} {b : Bool} (hi : i.isTransfer = false)
    (h : microDisplayControl mask b s = some t) : MicroOp i s t := by
  unfold microDisplayControl at h
  split at h
  · cases h
    exact .writeDc _ hi
  · exact microOp_of_request h
  · exact microOp_of_respond h
  · cases h

theorem microOp_of_microProgram (h : microProgram i s = some t) : MicroOp i s t := by
  cases i with
  | init => exact microOp_of_microInit h
  | deinit =>
    simp only [microProgram, microDeinit] at h
    split at h
    · cases h
      exact .release rfl
    · cases h
  | clear | home =>
    simp only [microProgram, microClear, microHome] at h
    split at h
    · exact microOp_of_request h
    · exact microOp_of_wait h
    · exact microOp_of_respond h
    · cases h
  | setcur | shift =>
    simp only [microProgram, microSetcur, microShift] at h
    split at h
    · exact microOp_of_advance h
    · exact microOp_of_request h
    · exact microOp_of_respond h
    · cases h
  | textdir | autoscroll => exact microOp_of_microEntryMode rfl h
  | display | cursor | blink => exact microOp_of_microDisplayControl rfl h
  | pattern => exact microOp_of_microPattern h
  | write => exact microOp_of_microWrite h
  | blsup | blset | blget =>
    simp only [microProgram, microBlsup, microBlset, microBlget] at h
    split at h
    · exact microOp_of_request h
    · exact microOp_of_respond h
    · cases h
  | _ => cases h

theorem microOp_of_commandBody (h : commandBody i (microProgram i) s = some t) : MicroOp i s t := by
  unfold commandBody at h
  split at h
  · exact microOp_of_admission h
  · exact microOp_of_microProgram h

theorem microOp_latch (c : Byte) : MicroOp i s (s.latch c) := .goOn _ _ _ _ _ _ (.inr rfl)

theorem microOp_dropAnswer (r : BusReq) (a : Byte) : MicroOp i s (State.dropAnswer r a s) :=
  .goOn _ _ _ _ _ _ (.inl rfl)

theorem microOp_answered (r : BusReq) (a : Byte) (s : State) : MicroOp i s (answeredOf i r a s) := by
  cases i with
  | init w h p m =>
    cases r with
    | init =>
      simp only [answeredOf, initAnswered]
      split
      · exact .advance
      · exact .endInit _ _ _ rfl (.inr rfl)
    | negotiate => exact .writeTm _ rfl
    | _ => exact .advance
  | pattern => cases r <;> exact .goOn _ _ _ _ _ _ (.inr rfl)
  | write len =>
    refine .goOn _ _ _ _ _ _ ?_
    split
    · exact .inl rfl
    · exact .inr rfl
  | deinit | clear | home | setcur | shift | textdir | autoscroll | display | cursor | blink | blsup | blset | blget =>
    exact microOp_latch a
  | _ => exact microOp_dropAnswer r a

/-- What a transaction can do at the ports before its micro-operation: nothing where none is outstanding, else the end
of the exchange or of the wait (R68, R71). -/
inductive PortStep (s : State) : State → Prop
  | free (hb : s.breq = none) (ht : s.treq = none) : PortStep s s
  | answered (r : BusReq) (a : Byte) (rest : List Byte) (hb : s.breq = some r) :
      PortStep s { s with breq := none, busIn := rest, busLate := 0, trace := s.trace ++ [.bus r a] }
  | done (us : Half) (n : Nat) (hb : s.breq = none) (ht : s.treq = some us) :
      PortStep s { s with treq := none, timerIn := n, timerLate := 0, trace := s.trace ++ [.wait us] }

/-- Everything one transaction can do: its part on the ports, then its part on the registers. -/
theorem microOp_of_tick {body : State → Option State} {answered : BusReq → Byte → State → State}
    (hbody : body s = some t → MicroOp i s t) (hanswer : ∀ r a u, MicroOp i u (answered r a u))
    (h : tick body answered s = some t) : ∃ u, PortStep s u ∧ MicroOp i u t := by
  obtain ⟨r, hr, h⟩ | ⟨hb, us, hu, h⟩ | ⟨hb, ht, h⟩ := tick_cases h
  · obtain ⟨a, rest, -, rfl⟩ := transfer_cases h
    exact ⟨_, .answered r a rest hr, hanswer r a _⟩
  · obtain ⟨n, -, rfl⟩ := elapse_cases h
    exact ⟨_, .done us n hb hu, .advance⟩
  · exact ⟨s, .free hb ht, hbody h⟩

theorem microOp_of_commandTick (h : tick (commandBody i (microProgram i)) (answeredOf i) s = some t) :
    ∃ u, PortStep s u ∧ MicroOp i u t :=
  microOp_of_tick microOp_of_commandBody microOp_answered h

/-- The transaction of a rejected word belongs to any command. -/
theorem microOp_of_rejectedTick {st : Status} {len : Nat} (h : tick (State.drain st len) State.dropAnswer s = some t) :
    ∃ u, PortStep s u ∧ MicroOp i u t :=
  microOp_of_tick microOp_of_drain (fun r a _ => microOp_dropAnswer r a) h

theorem microOp_of_wordTick {w : Word} (h : tick (bodyOfWord w) (answeredOfWord w) s = some t) :
    ∃ i u, PortStep s u ∧ MicroOp i u t := by
  cases hd : decodeCommand w with
  | ok i =>
    rw [bodyOfWord_ok hd, answeredOfWord_ok hd] at h
    exact ⟨i, microOp_of_commandTick h⟩
  | error e =>
    rw [bodyOfWord_error hd, answeredOfWord_error hd] at h
    exact ⟨.clear, microOp_of_rejectedTick h⟩

/-! ### What each part leaves alone -/

/-- The configuration INIT chose is the same in both states (R25, R26, R30, R31). -/
def State.SameConfiguration (s t : State) : Prop :=
  t.tm = s.tm ∧ t.fs = s.fs ∧ t.lines = s.lines ∧ t.lat = s.lat

theorem State.SameRegisters.trans (hu : s.SameRegisters u) (ht : u.SameRegisters t) : s.SameRegisters t := by
  obtain ⟨h1, h2, h3, h4, h5, h6, h7⟩ := hu
  simpa only [State.SameRegisters, h1, h2, h3, h4, h5, h6, h7] using ht

theorem isTransfer_of_isInit (hi : i.isInit = true) : i.isTransfer = false := by
  obtain ⟨w, l, p, m, rfl⟩ := exists_of_isInit hi
  rfl

theorem isCommand_of_isTransfer (hi : i.isTransfer = true) : i.isCommand = true := by
  cases i <;> first | rfl | cases hi

theorem PortStep.sameRegisters (h : PortStep s u) : s.SameRegisters u := by
  cases h <;> exact ⟨rfl, rfl, rfl, rfl, rfl, rfl, rfl⟩

theorem PortStep.hardwiredZero (h : PortStep s u) (hs : s.HardwiredZero) : u.HardwiredZero := by
  cases h <;> exact hs

theorem PortStep.sameSequencer (h : PortStep s u) :
    u.busy = s.busy ∧ u.ir = s.ir ∧ u.upc = s.upc ∧ u.rsps = s.rsps ∧ u.cmdIn = s.cmdIn := by
  cases h <;> exact ⟨rfl, rfl, rfl, rfl, rfl⟩

/-- Where at most one request was outstanding (R70), none is left. -/
theorem PortStep.clears (h : PortStep s u) (hs : s.breq = none ∨ s.treq = none) : u.breq = none ∧ u.treq = none := by
  cases h with
  | free hb ht => exact ⟨hb, ht⟩
  | answered r a rest hb => exact ⟨rfl, hs.resolve_left (by simp [hb])⟩
  | done us n hb ht => exact ⟨hb, rfl⟩

theorem MicroOp.cmdIn (h : MicroOp i s t) : t.cmdIn = s.cmdIn := by
  cases h <;> rfl

theorem MicroOp.sameRegisters (h : MicroOp i s t) (hi : i.isTransfer = true) : s.SameRegisters t := by
  cases h with
  | goOn | request | wait | respond => exact ⟨rfl, rfl, rfl, rfl, rfl, rfl, rfl⟩
  | writeDc v hf | writeEm v hf => simp [hi] at hf
  | writeTm m hf | writeFs v hf | writeGeometry l t hf | endInit p st v hf => simp [isTransfer_of_isInit hf] at hi
  | release hf => subst hf; cases hi

/-- No command but INIT writes the configuration (R25, R26, R30, R31). -/
theorem MicroOp.sameConfiguration (h : MicroOp i s t) (hi : i.isInit = false) : s.SameConfiguration t := by
  cases h with
  | goOn | request | wait | respond | writeDc | writeEm | release => exact ⟨rfl, rfl, rfl, rfl⟩
  | writeTm m hf | writeFs v hf | writeGeometry l t hf | endInit p st v hf => simp [hi] at hf

/-- R27: `UPC` stays, advances by one, or is cleared where the response is driven. -/
theorem MicroOp.upc (h : MicroOp i s t) :
    t.upc = s.upc ∨ t.upc = s.upc + 1 ∨ (t.upc = 0 ∧ t.busy = false ∧ ∃ w, t.rsps = s.rsps ++ [w]) := by
  cases h with
  | goOn upc plIn k nok stop cnt hu => exact hu.imp_right .inl
  | request | wait => exact .inl rfl
  | writeDc | writeEm | writeTm | writeFs | writeGeometry => exact .inr (.inl rfl)
  | respond | endInit | release => exact .inr (.inr ⟨rfl, rfl, _, rfl⟩)

/-- A command that goes on keeps its word and the phase, and `UPC` does not go back. -/
theorem MicroOp.of_busy (h : MicroOp i s t) (hb : t.busy = true) :
    t.ir = s.ir ∧ t.phase = s.phase ∧ (t.upc = s.upc ∨ t.upc = s.upc + 1) := by
  cases h with
  | goOn upc plIn k nok stop cnt hu => exact ⟨rfl, rfl, hu⟩
  | request | wait => exact ⟨rfl, rfl, .inl rfl⟩
  | writeDc | writeEm | writeTm | writeFs | writeGeometry => exact ⟨rfl, rfl, .inr rfl⟩
  | respond | endInit | release => cases hb

/-- The response leaves the block quiet (R33). -/
theorem MicroOp.quiet (h : MicroOp i s t) (hs : s.busy = true) (hb : s.breq = none) (ht : s.treq = none)
    (ht' : t.busy = false) : t.Quiet := by
  cases h with
  | respond | endInit | release => exact ⟨rfl, rfl, rfl, rfl, rfl, rfl, hb, ht⟩
  | _ => exact absurd ht' (by simp [hs])

/-- R70: from none outstanding no two requests come to stand together. -/
theorem MicroOp.oneRequest (h : MicroOp i s t) (hb : s.breq = none) (ht : s.treq = none) :
    t.breq = none ∨ t.treq = none := by
  cases h with
  | request => exact .inr ht
  | _ => exact .inl hb

theorem hardwiredZero_of_live (v live dead : Byte) (h : live &&& dead = 0) : v &&& live &&& dead = 0 := by
  rw [BitVec.and_assoc, h]
  exact BitVec.and_zero

/-- R34. -/
theorem MicroOp.hardwiredZero (h : MicroOp i s t) (hs : s.HardwiredZero) : t.HardwiredZero := by
  obtain ⟨hfs, hdc, hem⟩ := hs
  cases h with
  | writeFs v => exact ⟨hardwiredZero_of_live v _ _ (by decide), hdc, hem⟩
  | writeDc v => exact ⟨hfs, hardwiredZero_of_live v _ _ (by decide), hem⟩
  | writeEm v => exact ⟨hfs, hdc, hardwiredZero_of_live v _ _ (by decide)⟩
  | _ => exact ⟨hfs, hdc, hem⟩

theorem legalPhaseStep_refl (p : Phase) : legalPhaseStep p p := by
  cases p <;> trivial

/-- R23: a command admitted in a phase moves it only along a listed transition. -/
theorem MicroOp.phase (h : MicroOp i s t) (ha : admitted i s.phase = true) : legalPhaseStep s.phase t.phase := by
  cases h with
  | endInit p st v hi hp =>
    obtain ⟨w, l, f, m, rfl⟩ := exists_of_isInit hi
    have hs : s.phase = .uninit := by simpa [admitted] using ha
    change legalPhaseStep s.phase p
    obtain rfl | rfl := hp <;> rw [hs] <;> trivial
  | release hi =>
    subst hi
    change legalPhaseStep s.phase .released
    cases hs : s.phase with
    | released => simp [admitted, hs] at ha
    | uninit | ready | failed => trivial
  | _ => exact legalPhaseStep_refl _

theorem MicroOp.phase_of_not_init (h : MicroOp i s t) (hi : i.isInit = false) :
    t.phase = s.phase ∨ t.phase = .released := by
  cases h with
  | goOn | request | wait | respond | writeDc | writeEm => exact .inl rfl
  | release => exact .inr rfl
  | writeTm m hf | writeFs v hf | writeGeometry l t hf | endInit p st v hf => simp [hi] at hf

end Machine
end Sys2Proof
end

section
/-! What a step runs: the transactions of the word the block holds, or of the word it accepts. -/

namespace Sys2Proof.Machine

variable {i : Instr} {s t : State} {w : Word} {ws : List Word}

/-- A run of one word's transactions keeps what each transaction of the running word keeps. -/
theorem run_keeps_word {P : State → Prop}
    (keeps : ∀ u v, P u → u.busy = true → tick (bodyOfWord u.ir) (answeredOfWord u.ir) u = some v → P v)
    (n : Nat) (hs : P s) (hb : s.busy = true) : P (run (bodyOfWord s.ir) (answeredOfWord s.ir) n s) := by
  suffices h : ∀ w, s.ir = w → P (run (bodyOfWord w) (answeredOfWord w) n s) from h _ rfl
  intro w hw
  refine And.left (run_keeps_busy (P := fun u => P u ∧ (u.busy = true → u.ir = w)) ?_ n s ⟨hs, fun _ => hw⟩ hb)
  rintro u v ⟨hu, hir⟩ hub hv
  have hv' := hir hub ▸ hv
  obtain ⟨-, -, hsame⟩ := tick_keeps hv'
  exact ⟨keeps u v hu hub hv', fun hvb => (hsame hvb).trans (hir hub)⟩

/-- The exchange of a form is at most one transaction of the word the block holds. -/
theorem exchange_of_busy (hb : s.busy = true) (r : BusReq) :
    ∃ n, exchange r s = run (bodyOfWord s.ir) (answeredOfWord s.ir) n s := by
  by_cases hr : s.breq = some r
  · refine ⟨1, ?_⟩
    have hx : exchange r s = (s.transfer r (answeredOfWord s.ir r)).getD (s.drive r) := by
      simp [exchange, hr, hb]
    have hdrive : s.drive r = s := by simp [State.drive, ← hr]
    rw [hx, hdrive, run, tick_bus hr]
    cases s.transfer r (answeredOfWord s.ir r) with
    | none => rfl
    | some t => simp [run]
  · exact ⟨0, by simp [exchange, hr, hb, run]⟩

theorem transaction_of_busy (hr : s.rst = false) (hb : s.busy = true) :
    transaction s = (tick (bodyOfWord s.ir) (answeredOfWord s.ir) s).getD s := by
  simp [transaction, hr, hb]

/-! ### The arms of `step` -/

theorem step_of_form {r : BusReq} (hr : s.rst = false) (hb : s.breq = some r) (hd : decodeRequest r = .ok i) :
    step s = exec i s := by
  simp [step, hr, hb, hd]

/-- Where no emitted form stands on the bus port, `step` looks past it. -/
theorem breq_is_no_form (hf : ∀ r j, s.breq = some r → decodeRequest r ≠ .ok j) (j : Instr) :
    s.breq.map decodeRequest ≠ some (.ok j) := by
  intro h
  obtain ⟨r, hb, hd⟩ := Option.map_eq_some_iff.mp h
  exact hf r j hb hd

theorem step_of_running (hr : s.rst = false) (hb : s.busy = true)
    (hf : ∀ r j, s.breq = some r → decodeRequest r ≠ .ok j) (hd : decodeCommand s.ir = .ok i) : step s = exec i s := by
  unfold step
  rw [if_neg (by simp [hr])]
  split
  · rename_i j hj
    exact absurd hj (breq_is_no_form hf j)
  · rw [if_pos hb]
    simp only [hd]

theorem step_of_rejected {e : DecodeError} (hr : s.rst = false) (hb : s.busy = true)
    (hf : ∀ r j, s.breq = some r → decodeRequest r ≠ .ok j) (hd : decodeCommand s.ir = .error e) :
    step s = .next (runIllegal s.ir s) := by
  unfold step
  rw [if_neg (by simp [hr])]
  split
  · rename_i j hj
    exact absurd hj (breq_is_no_form hf j)
  · rw [if_pos hb]
    simp only [hd]

theorem step_of_no_word (hr : s.rst = false) (hb : s.busy = false) (hq : s.breq = none) (hc : s.cmdIn = []) :
    step s = .next s := by
  simp [step, hr, hb, hq, hc]

theorem step_of_presented (hr : s.rst = false) (hb : s.busy = false) (hq : s.breq = none) (hc : s.cmdIn = w :: ws)
    (hd : decodeCommand w = .ok i) : step s = exec i { s with cmdIn := ws } := by
  simp [step, hr, hb, hq, hc, hd]

theorem step_of_presented_illegal {e : DecodeError} (hr : s.rst = false) (hb : s.busy = false) (hq : s.breq = none)
    (hc : s.cmdIn = w :: ws) (hd : decodeCommand w = .error e) :
    step s = .next (runIllegal w ({ s with cmdIn := ws }.accept w)) := by
  simp [step, hr, hb, hq, hc, hd]

/-! ### A step is a run -/

theorem runIllegal_eq_run {e : DecodeError} (hd : decodeCommand w = .error e) (s : State) :
    runIllegal w s = run (bodyOfWord w) (answeredOfWord w) (runBound (paylen w)) s := by
  rw [runIllegal, bodyOfWord_error hd, answeredOfWord_error hd]

/-- The meaning of a command on a busy block: a run where it is the command of the word held, else nothing. -/
theorem exec_command_of_busy (hb : s.busy = true) (hd : decodeCommand s.ir = .ok i) :
    ∃ n, exec i s = .next (run (bodyOfWord s.ir) (answeredOfWord s.ir) n s) := by
  rw [exec_command (decodeCommand_ok hd).1, bodyOfWord_ok hd, answeredOfWord_ok hd]
  by_cases hi : s.ir = commandWord i
  · exact ⟨_, congrArg _ (runCommand_of_running hb hi)⟩
  · exact ⟨0, congrArg _ (runCommand_of_other hb hi)⟩

theorem requestOf_of_form (hi : i.isCommand = false) : ∃ r, requestOf i = some r := by
  cases i <;> first | exact ⟨_, rfl⟩ | cases hi

/-- A step of a block that runs a command is a run of the word it holds. -/
theorem step_of_busy (hr : s.rst = false) (hb : s.busy = true) :
    ∃ n, step s = .next (run (bodyOfWord s.ir) (answeredOfWord s.ir) n s) := by
  by_cases hf : ∀ r j, s.breq = some r → decodeRequest r ≠ .ok j
  · cases hd : decodeCommand s.ir with
    | ok i =>
      rw [step_of_running hr hb hf hd]
      exact exec_command_of_busy hb hd
    | error e =>
      rw [step_of_rejected hr hb hf hd, runIllegal_eq_run hd]
      exact ⟨_, rfl⟩
  · push Not at hf
    obtain ⟨r, i, hq, hd⟩ := hf
    obtain ⟨r', hr'⟩ := requestOf_of_form (decodeRequest_ok hd)
    obtain ⟨n, hn⟩ := exchange_of_busy hb r'
    exact ⟨n, by rw [step_of_form hr hq hd, exec_form hr', hn]⟩

/-- A step of an idle block to which a word is presented accepts a word and runs it. -/
theorem step_of_word (hr : s.rst = false) (hb : s.busy = false) (hq : s.breq = none) (hc : s.cmdIn = w :: ws) :
    ∃ v n, step s = .next (run (bodyOfWord v) (answeredOfWord v) n ({ s with cmdIn := ws }.accept v)) := by
  cases hd : decodeCommand w with
  | ok i =>
    obtain ⟨hcmd, hwf⟩ := decodeCommand_ok hd
    have hv := decodeCommand_commandWord hcmd hwf
    refine ⟨commandWord i, runBound (payloadLength i), ?_⟩
    rw [step_of_presented hr hb hq hc hd, exec_command hcmd, bodyOfWord_ok hv, answeredOfWord_ok hv]
    exact congrArg _ (runCommand_of_idle hb)
  | error e =>
    rw [step_of_presented_illegal hr hb hq hc hd, runIllegal_eq_run hd]
    exact ⟨w, _, rfl⟩

/-- The induction over a step, once: without hardware reset a step keeps what the acceptance of a word and each transaction
of the running word keep. -/
theorem step_keeps {P : State → Prop} (hr : s.rst = false) (hq : s.busy = true ∨ s.breq = none) (hs : P s)
    (accepts : ∀ w ws, s.busy = false → P ({ s with cmdIn := ws }.accept w))
    (keeps : ∀ u v, P u → u.busy = true → tick (bodyOfWord u.ir) (answeredOfWord u.ir) u = some v → P v)
    (h : step s = .next t) : P t := by
  cases hb : s.busy with
  | true =>
    obtain ⟨n, hn⟩ := step_of_busy hr hb
    cases hn.symm.trans h
    exact run_keeps_word keeps n hs hb
  | false =>
    have hq := hq.resolve_left (by simp [hb])
    cases hc : s.cmdIn with
    | nil =>
      cases (step_of_no_word hr hb hq hc).symm.trans h
      exact hs
    | cons w ws =>
      obtain ⟨v, n, hn⟩ := step_of_word hr hb hq hc
      cases hn.symm.trans h
      exact run_keeps_word keeps n (accepts v ws hb) rfl

end Sys2Proof.Machine
end

section
/-! What INIT has done by the step it is at (R120), and the READY configuration it ends with (R38). -/

namespace Sys2Proof.Machine

variable {s t : State} {w : BitVec 8} {h : BitVec 3} {p : Font} {m : TransferMode}

theorem deriveFs_live (tm : TransferMode) (h : BitVec 3) (p : Font) : deriveFs tm h p &&& liveFs = deriveFs tm h p := by
  unfold deriveFs
  split_ifs <;> rfl

/-- The bits of the function set INIT derives (R124). -/
theorem deriveFs_bits (tm : TransferMode) (h : BitVec 3) (p : Font) :
    (deriveFs tm h p).getLsbD 4 = tm.bit ∧ ((deriveFs tm h p).getLsbD 3 = true ↔ 2 ≤ h.toNat) ∧
      ((deriveFs tm h p).getLsbD 2 = true → h = 1) := by
  revert h
  cases tm <;> cases p <;> decide

theorem State.InitProgress.configured (hs : s.InitProgress w h p) (hu : 5 ≤ s.upc) (hl : legalLines h = true) :
    s.Configured := by
  obtain ⟨hfs, hgeo, -, -⟩ := hs
  obtain ⟨rfl, hlat⟩ := hgeo hu
  obtain ⟨hdl, hn, hf⟩ := deriveFs_bits s.tm s.lines p
  rw [← hfs (by omega)] at hdl hn hf
  refine ⟨?_, hdl, hn, hf, (legalLines_iff _).mp hl⟩
  rw [hlat]
  cases widthClass w
  · exact .inl rfl
  · exact .inr rfl

/-- With no request outstanding, `UPC` advances from any step but the two that write `FS` and the line table. -/
theorem State.InitProgress.advance (hs : s.InitProgress w h p) (hb : s.breq = none) (ht : s.treq = none)
    (hu : s.upc ≤ 2 ∨ 5 ≤ s.upc) : s.advance.InitProgress w h p := by
  obtain ⟨hfs, hgeo, -, -⟩ := hs
  refine ⟨fun hu' => hfs ?_, fun hu' => hgeo ?_, by simp [hb], by simp [ht]⟩ <;>
  · simp only [State.advance_upc] at hu'
    omega

theorem State.InitProgress.drive {r : BusReq} (hs : s.InitProgress w h p) (ht : s.treq = none)
    (hr : s.upc ≤ 2 ∨ (5 ≤ s.upc ∧ ∀ m, r ≠ .negotiate m)) : (s.drive r).InitProgress w h p := by
  obtain ⟨hfs, hgeo, -, -⟩ := hs
  refine ⟨hfs, hgeo, ?_, by simp [ht]⟩
  rintro r' hr'
  cases hr'
  exact hr

theorem State.InitProgress.wait {us : Half} (hs : s.InitProgress w h p) (hb : s.breq = none) (hu : 5 ≤ s.upc) :
    State.InitProgress w h p { s with treq := some us } := by
  obtain ⟨hfs, hgeo, -, -⟩ := hs
  exact ⟨hfs, hgeo, by simp [hb], fun _ => hu⟩

theorem burstRequest_ne_negotiate (s : State) (m : TransferMode) : burstRequest s ≠ .negotiate m := by
  unfold burstRequest
  split <;> simp

/-- What a transaction of INIT past its admission can do: it goes on with its progress kept, it fails (R122), or it ends in
a READY configuration (R38). -/
inductive InitMove (w : BitVec 8) (h : BitVec 3) (p : Font) (s t : State) : Prop
  | goesOn (hphase : t.phase = s.phase) (hprogress : t.InitProgress w h p)
  | fails (hbusy : t.busy = false) (hphase : t.phase = .failed)
  | ends (hbusy : t.busy = false) (hready : t.Configured)

theorem initMove_of_request {r : BusReq} (hs : s.InitProgress w h p) (ht : s.treq = none)
    (hu : s.upc ≤ 2 ∨ (5 ≤ s.upc ∧ ∀ m, r ≠ .negotiate m)) (hr : s.request r = some t) : InitMove w h p s t := by
  cases hr
  exact .goesOn rfl (hs.drive ht hu)

theorem initMove_of_wait {us : Half} (hs : s.InitProgress w h p) (hb : s.breq = none) (hu : 5 ≤ s.upc)
    (hw : s.wait us = some t) : InitMove w h p s t := by
  cases hw
  exact .goesOn rfl (hs.wait hb hu)

theorem initMove_of_microInit (hs : s.InitProgress w h p) (hl : legalLines h = true) (hb : s.breq = none)
    (ht : s.treq = none) (hm : microInit w h p m s = some t) : InitMove w h p s t := by
  obtain ⟨hfs, hgeo, -, -⟩ := id hs
  unfold microInit at hm
  split at hm
  case h_1 hu | h_2 hu => exact initMove_of_request hs ht (.inl (by omega)) hm
  case h_3 hu =>
    cases hm
    exact .goesOn rfl ⟨fun _ => deriveFs_live s.tm h p, by simp [hu], by simp [hb], by simp [ht]⟩
  case h_4 hu =>
    cases hm
    exact .goesOn rfl ⟨fun _ => hfs (by omega), fun _ => ⟨rfl, rfl⟩, by simp [hb], by simp [ht]⟩
  case h_5 hu | h_7 hu | h_9 hu | h_11 hu | h_17 hu => exact initMove_of_wait hs hb (by omega) hm
  case h_6 hu | h_8 hu | h_10 hu =>
    exact initMove_of_request hs ht (.inr ⟨by omega, burstRequest_ne_negotiate s⟩) hm
  case h_12 hu =>
    split at hm
    · exact initMove_of_request hs ht (.inr ⟨by omega, by simp⟩) hm
    · cases hm
      exact .goesOn rfl (hs.advance hb ht (.inr (by omega)))
  case h_13 hu | h_15 hu | h_16 hu | h_19 hu => exact initMove_of_request hs ht (.inr ⟨by omega, by simp⟩) hm
  case h_14 hu =>
    cases hm
    exact .goesOn rfl (State.InitProgress.advance (s := s.writeDc maskD) hs hb ht (.inr (by simp [hu])))
  case h_18 hu =>
    cases hm
    exact .goesOn rfl (State.InitProgress.advance (s := s.writeEm maskId) hs hb ht (.inr (by simp [hu])))
  case h_20 hu =>
    cases hm
    exact .ends rfl (hs.configured (by omega) hl)
  case h_21 => cases hm

/-- `BusNegotiate` is answered before `FS` is derived from the mode. -/
theorem initMove_of_initAnswered {r : BusReq} (a : Byte) (hs : s.InitProgress w h p) (hb : s.breq = none)
    (ht : s.treq = none) (hr : s.upc ≤ 2 ∨ (5 ≤ s.upc ∧ ∀ m, r ≠ .negotiate m)) :
    InitMove w h p s (initAnswered r a s) := by
  have hu : s.upc ≤ 2 ∨ 5 ≤ s.upc := hr.imp_right And.left
  cases r with
  | init =>
    simp only [initAnswered]
    split
    · exact .goesOn rfl (hs.advance hb ht hu)
    · exact .fails rfl rfl
  | negotiate m =>
    have hu2 : s.upc ≤ 2 := hr.resolve_right fun hneg => hneg.2 m rfl
    refine .goesOn rfl ⟨fun hu4 => ?_, fun hu5 => ?_, by simp [initAnswered, hb], by simp [initAnswered, ht]⟩ <;>
    · simp only [initAnswered, State.advance_upc] at *
      omega
  | instr | nibble | data | blSupported | blSet | blGet => exact .goesOn rfl (hs.advance hb ht hu)

theorem initMove_of_tick (hs : s.InitProgress w h p) (hl : legalLines h = true) (hq : s.breq = none ∨ s.treq = none)
    (hu : s.upc ≠ 0)
    (ht : tick (commandBody (.init w h p m) (microProgram (.init w h p m))) (answeredOf (.init w h p m)) s = some t) :
    InitMove w h p s t := by
  obtain ⟨hfs, hgeo, hbus, hwait⟩ := id hs
  obtain ⟨r, hr, ht⟩ | ⟨hb, us, hus, ht⟩ | ⟨hb, hus, ht⟩ := tick_cases ht
  · obtain ⟨a, rest, -, rfl⟩ := transfer_cases ht
    have htreq : s.treq = none := hq.resolve_left (by simp [hr])
    have hclear : State.InitProgress w h p
        { s with breq := none, busIn := rest, busLate := 0, trace := s.trace ++ [.bus r a] } :=
      ⟨hfs, hgeo, nofun, hwait⟩
    obtain ⟨hphase, hprogress⟩ | ⟨hbusy, hphase⟩ | ⟨hbusy, hready⟩ :=
      initMove_of_initAnswered a hclear rfl htreq (hbus r hr)
    · exact .goesOn hphase hprogress
    · exact .fails hbusy hphase
    · exact .ends hbusy hready
  · obtain ⟨n, -, rfl⟩ := elapse_cases ht
    have hclear : State.InitProgress w h p
        { s with treq := none, timerIn := n, timerLate := 0, trace := s.trace ++ [.wait us] } :=
      ⟨hfs, hgeo, hbus, nofun⟩
    exact .goesOn rfl (hclear.advance hb rfl (.inr (hwait (by simp [hus]))))
  · rw [commandBody, if_neg hu] at ht
    exact initMove_of_microInit hs hl hb hus ht

end Sys2Proof.Machine
end

section
/-! Every transaction of a running command keeps the invariant of the machine. -/

namespace Sys2Proof.Machine

variable {i : Instr} {s t u : State}

/-- A command past its admission keeps the progress its later steps rely on. -/
theorem progress_of_tick (hd : decodeCommand s.ir = .ok i) (hs : s.Progress i) (hq : s.breq = none ∨ s.treq = none)
    (hu : s.upc ≠ 0) (h : tick (commandBody i (microProgram i)) (answeredOf i) s = some t) (hb : t.busy = true) :
    t.Progress i := by
  cases i with
  | init w l p m =>
    cases initMove_of_tick hs (decodeCommand_ok hd).2 hq hu h with
    | goesOn hphase hprogress => exact hprogress
    | fails hbusy | ends hbusy => simp [hb] at hbusy
  | deinit | clear | home | setcur | shift | textdir | autoscroll | display | cursor | blink | pattern | write | blsup
    | blset | blget => trivial
  | _ => exact hs

/-- A command just admitted has nothing behind it yet. -/
theorem progress_of_admission (hi : i.isCommand = true) (hu : s.upc = 0) (hb : s.breq = none) (ht : s.treq = none) :
    s.advance.Progress i := by
  cases i with
  | init => exact ⟨by simp [hu], by simp [hu], by simp [hb], by simp [ht]⟩
  | deinit | clear | home | setcur | shift | textdir | autoscroll | display | cursor | blink | pattern | write | blsup
    | blset | blget => trivial
  | _ => cases hi

theorem runsLegally_of_drain {st : Status} {len : Nat} (hu : s.upc = 0) (hb : s.breq = none) (ht : s.treq = none)
    (h : s.drain st len = some t) (hbt : t.busy = true) : t.RunsLegally := by
  obtain ⟨-, b, rest, -, rfl⟩ | ⟨-, rfl⟩ := drain_cases h
  · exact ⟨fun _ => ⟨hb, ht⟩, fun hu' => absurd hu hu'⟩
  · cases hbt

/-- The transactions of the admission: what they let through is legal and admitted (R224, R225). -/
theorem runsLegally_of_admission (hu : s.upc = 0) (hb : s.breq = none) (ht : s.treq = none)
    (h : bodyOfWord s.ir s = some t) (hbt : t.busy = true) : t.RunsLegally := by
  cases hd : decodeCommand s.ir with
  | error e =>
    rw [bodyOfWord_error hd] at h
    exact runsLegally_of_drain hu hb ht h hbt
  | ok i =>
    rw [bodyOfWord_ok hd, commandBody, if_pos hu] at h
    obtain ⟨-, ha, rfl⟩ | ⟨-, -, h⟩ | ⟨-, h⟩ := admission_cases h
    · exact ⟨by simp, fun _ => ⟨i, hd, ha, progress_of_admission (decodeCommand_ok hd).1 hu hb ht⟩⟩
    · exact runsLegally_of_drain hu hb ht h hbt
    · exact runsLegally_of_drain hu hb ht h hbt

/-- Where a transaction of a running command stands: in the admission, which belongs to no command yet and so writes no
register (CLEAR's rights are as good as any), or past it. -/
inductive RunStage (s : State) (i : Instr) (t : State) : Prop
  | admission (hu : s.upc = 0) (hi : i = .clear)
  | running (hu : s.upc ≠ 0) (hd : decodeCommand s.ir = .ok i) (ha : admitted i s.phase = true) (hp : s.Progress i)
      (h : tick (commandBody i (microProgram i)) (answeredOf i) s = some t)

theorem microOp_of_inv (hs : s.Inv) (hb : s.busy = true)
    (h : tick (bodyOfWord s.ir) (answeredOfWord s.ir) s = some t) :
    ∃ i u, PortStep s u ∧ MicroOp i u t ∧ RunStage s i t := by
  obtain ⟨-, -, -, -, hrun⟩ := hs
  obtain ⟨hstart, hrun⟩ := hrun hb
  by_cases hu : s.upc = 0
  · obtain ⟨hq, ht⟩ := hstart hu
    rw [tick_body hq ht] at h
    refine ⟨.clear, s, .free hq ht, ?_, .admission hu rfl⟩
    cases hd : decodeCommand s.ir with
    | error e =>
      rw [bodyOfWord_error hd] at h
      exact microOp_of_drain h
    | ok i =>
      rw [bodyOfWord_ok hd, commandBody, if_pos hu] at h
      exact microOp_of_admission h
  · obtain ⟨i, hd, ha, hp⟩ := hrun hu
    rw [bodyOfWord_ok hd, answeredOfWord_ok hd] at h
    obtain ⟨u, hport, hop⟩ := microOp_of_commandTick h
    exact ⟨i, u, hport, hop, .running hu hd ha hp h⟩

theorem runsLegally_of_tick (hs : s.Inv) (hb : s.busy = true)
    (h : tick (bodyOfWord s.ir) (answeredOfWord s.ir) s = some t) (hbt : t.busy = true) : t.RunsLegally := by
  obtain ⟨i, u, hport, hop, hstage⟩ := microOp_of_inv hs hb h
  obtain ⟨-, -, hq, -, hrun⟩ := hs
  cases hstage with
  | admission hu =>
    obtain ⟨hbq, htq⟩ := (hrun hb).1 hu
    rw [tick_body hbq htq] at h
    exact runsLegally_of_admission hu hbq htq h hbt
  | running hu hd ha hp hc =>
    obtain ⟨hir, hphase, hupc⟩ := hop.of_busy hbt
    obtain ⟨-, hir', hupc', -, -⟩ := hport.sameSequencer
    obtain ⟨hphase', -⟩ := hport.sameRegisters
    refine ⟨fun h0 => absurd h0 (by omega), fun _ => ⟨i, ?_, ?_, progress_of_tick hd hp hq hu hc hbt⟩⟩
    · rw [hir, hir', hd]
    · rw [hphase, hphase', ha]

theorem State.Configured.of_same (hs : s.Configured) (htm : t.tm = s.tm) (hfs : t.fs = s.fs) (hlines : t.lines = s.lines)
    (hlat : t.lat = s.lat) : t.Configured := by
  simpa only [State.Configured, State.LegalLines, htm, hfs, hlines, hlat] using hs

/-- READY is entered by INIT's response alone, and any other command keeps the configuration it finds there. -/
theorem configured_of_tick (hs : s.Inv) (hb : s.busy = true)
    (h : tick (bodyOfWord s.ir) (answeredOfWord s.ir) s = some t) (hready : t.phase = .ready) : t.Configured := by
  obtain ⟨i, u, hport, hop, hstage⟩ := microOp_of_inv hs hb h
  obtain ⟨-, hconf, hq, -, -⟩ := hs
  obtain ⟨hphase, htm, hfs, -, -, hlines, hlat⟩ := hport.sameRegisters
  cases hinit : i.isInit with
  | false =>
    obtain ⟨htm', hfs', hlines', hlat'⟩ := hop.sameConfiguration hinit
    have hs' : s.phase = .ready := by
      rw [← hphase, ← hready]
      exact (hop.phase_of_not_init hinit).elim Eq.symm fun hr => by simp [hready] at hr
    exact (hconf hs').of_same (htm'.trans htm) (hfs'.trans hfs) (hlines'.trans hlines) (hlat'.trans hlat)
  | true =>
    cases hstage with
    | admission hu hi => subst hi; cases hinit
    | running hu hd ha hp hc =>
      obtain ⟨w, l, p, m, rfl⟩ := exists_of_isInit hinit
      have hs' : s.phase = .uninit := by simpa [admitted] using ha
      obtain ⟨-, hl⟩ := decodeCommand_ok hd
      cases initMove_of_tick hp hl hq hu hc with
      | goesOn hphase' => simp [hready, hs'] at hphase'
      | fails hbusy hphase' => simp [hready] at hphase'
      | ends hbusy hconf' => exact hconf'

/-- R38, R34 and R70 over one transaction. -/
theorem inv_of_tick (hs : s.Inv) (hb : s.busy = true)
    (h : tick (bodyOfWord s.ir) (answeredOfWord s.ir) s = some t) : t.Inv := by
  obtain ⟨i, u, hport, hop, -⟩ := microOp_of_inv hs hb h
  obtain ⟨hzero, -, hq, -, -⟩ := id hs
  obtain ⟨hbq, htq⟩ := hport.clears hq
  obtain ⟨hbu, -⟩ := hport.sameSequencer
  exact ⟨hop.hardwiredZero (hport.hardwiredZero hzero), configured_of_tick hs hb h, hop.oneRequest hbq htq,
    hop.quiet (hbu.trans hb) hbq htq, runsLegally_of_tick hs hb h⟩

theorem inv_of_accept {w : Word} {ws : List Word} (hs : s.Inv) : ({ s with cmdIn := ws }.accept w).Inv := by
  obtain ⟨hzero, hconf, -, -, -⟩ := hs
  exact ⟨hzero, hconf, .inl rfl, nofun, fun _ => ⟨fun _ => ⟨rfl, rfl⟩, fun hu => absurd rfl hu⟩⟩

theorem inv_of_hardReset (s : State) : s.hardReset.Inv :=
  ⟨⟨BitVec.zero_and, BitVec.zero_and, BitVec.zero_and⟩, nofun, .inl rfl,
    fun _ => ⟨rfl, rfl, rfl, rfl, rfl, rfl, rfl, rfl⟩, nofun⟩

theorem State.Inv.busy_or_free (hs : s.Inv) : s.busy = true ∨ s.breq = none := by
  obtain ⟨-, -, -, hquiet, -⟩ := hs
  cases hb : s.busy with
  | true => exact .inl rfl
  | false =>
    obtain ⟨-, -, -, -, -, -, hq, -⟩ := hquiet hb
    exact .inr hq

/-! ### The phase and the configuration under the invariant -/

/-- R23 over one transaction; a command that goes on keeps the phase. -/
theorem phase_of_tick (hs : s.Inv) (hb : s.busy = true)
    (h : tick (bodyOfWord s.ir) (answeredOfWord s.ir) s = some t) :
    (t.busy = true → t.phase = s.phase) ∧ legalPhaseStep s.phase t.phase := by
  obtain ⟨i, u, hport, hop, hstage⟩ := microOp_of_inv hs hb h
  obtain ⟨hphase, -⟩ := hport.sameRegisters
  refine ⟨fun hbt => ?_, ?_⟩
  · obtain ⟨-, hsame, -⟩ := hop.of_busy hbt
    exact hsame.trans hphase
  · cases hstage with
    | admission hu hi =>
      obtain ⟨hsame, -⟩ := hop.sameRegisters (hi ▸ rfl)
      rw [hsame, hphase]
      exact legalPhaseStep_refl _
    | running hu hd ha => exact hphase ▸ hop.phase (hphase ▸ ha)

/-- R25 and R31 over one transaction in READY, where INIT is not admitted. -/
theorem sameConfiguration_of_tick (hs : s.Inv) (hb : s.busy = true) (hready : s.phase = .ready)
    (h : tick (bodyOfWord s.ir) (answeredOfWord s.ir) s = some t) : s.SameConfiguration t := by
  obtain ⟨i, u, hport, hop, hstage⟩ := microOp_of_inv hs hb h
  obtain ⟨-, htm, hfs, -, -, hlines, hlat⟩ := hport.sameRegisters
  have hinit : i.isInit = false := by
    cases hstage with
    | admission hu hi => rw [hi]; rfl
    | running hu hd ha =>
      cases i with
      | init => simp [admitted, hready] at ha
      | _ => rfl
  obtain ⟨htm', hfs', hlines', hlat'⟩ := hop.sameConfiguration hinit
  exact ⟨htm'.trans htm, hfs'.trans hfs, hlines'.trans hlines, hlat'.trans hlat⟩

end Sys2Proof.Machine
end

section
/-! The statements about the block's state: the invariant, `PHASE`, `BUSY`, `UPC`, the registers and their reset values. -/

namespace Sys2Proof.Machine

/-- Settles O52: by the induction over a step, from what acceptance and one transaction keep. -/
theorem stepKeepsInvariant : Obligations.StepKeepsInvariant := by
  intro s t hs h
  cases hr : s.rst with
  | true =>
    simp only [step, hr, if_true] at h
    cases h
    exact inv_of_hardReset s
  | false =>
    exact step_keeps hr hs.busy_or_free hs (fun _ _ _ => inv_of_accept hs) (fun _ _ hu hb hv => inv_of_tick hu hb hv) h

/-- Settles O19: no transaction of a running command writes the command port. -/
theorem busyBlockAcceptsNoCommand : Obligations.BusyBlockAcceptsNoCommand := by
  intro s t hb h
  cases hr : s.rst with
  | true =>
    simp only [step, hr, if_true] at h
    cases h
    rfl
  | false =>
    refine step_keeps (P := fun u => u.cmdIn = s.cmdIn) hr (.inl hb) rfl (fun _ _ hb' => ?_) (fun u v hu _ hv => ?_) h
    · simp [hb] at hb'
    · obtain ⟨-, hsame, -⟩ := tick_keeps hv
      exact hsame.trans hu

/-- Settles O54: a command moves the phase in the transaction that ends it, so the step's last transaction decides. -/
theorem phaseMovesLegally : Obligations.PhaseMovesLegally := by
  intro s t hs hr h
  obtain ⟨-, -, hlegal⟩ : t.Inv ∧ (t.busy = true → t.phase = s.phase) ∧ legalPhaseStep s.phase t.phase := by
    refine step_keeps (P := fun u => u.Inv ∧ (u.busy = true → u.phase = s.phase) ∧ legalPhaseStep s.phase u.phase)
      hr hs.busy_or_free ⟨hs, fun _ => rfl, legalPhaseStep_refl _⟩
      (fun w ws _ => ⟨inv_of_accept hs, fun _ => rfl, legalPhaseStep_refl _⟩) ?_ h
    rintro u v ⟨hu, hphase, -⟩ hb hv
    obtain ⟨hkeep, hlegal⟩ := phase_of_tick hu hb hv
    exact ⟨inv_of_tick hu hb hv, fun hbv => (hkeep hbv).trans (hphase hb), hphase hb ▸ hlegal⟩
  exact hlegal

/-- Settles O55: what runs in READY is not INIT, and stays in READY while it runs. -/
theorem configurationIsImmutableInReady : Obligations.ConfigurationIsImmutableInReady := by
  intro s t hs hr hready h
  obtain ⟨-, -, hsame⟩ : t.Inv ∧ (t.busy = true → t.phase = .ready) ∧ s.SameConfiguration t := by
    refine step_keeps (P := fun u => u.Inv ∧ (u.busy = true → u.phase = .ready) ∧ s.SameConfiguration u)
      hr hs.busy_or_free ⟨hs, fun _ => hready, rfl, rfl, rfl, rfl⟩
      (fun w ws _ => ⟨inv_of_accept hs, fun _ => hready, rfl, rfl, rfl, rfl⟩) ?_ h
    rintro u v ⟨hu, hphase, htm, hfs, hlines, hlat⟩ hb hv
    obtain ⟨hkeep, -⟩ := phase_of_tick hu hb hv
    obtain ⟨htm', hfs', hlines', hlat'⟩ := sameConfiguration_of_tick hu hb (hphase hb) hv
    exact ⟨inv_of_tick hu hb hv, fun hbv => (hkeep hbv).trans (hphase hb), htm'.trans htm, hfs'.trans hfs,
      hlines'.trans hlines, hlat'.trans hlat⟩
  exact hsame

/-- Settles O48: acceptance writes no persistent register, and no transaction of these commands does. -/
theorem transferCommandsKeepRegisters : Obligations.TransferCommandsKeepRegisters := by
  intro i s t hi h
  have htransfer : i.isTransfer = true := by
    obtain rfl | rfl | ⟨_, _, rfl⟩ | ⟨_, _, rfl⟩ | ⟨_, rfl⟩ | ⟨_, rfl⟩ | rfl | ⟨_, rfl⟩ | rfl := hi <;> rfl
  rw [exec_command (isCommand_of_isTransfer htransfer)] at h
  cases h
  refine runCommand_keeps (P := fun u => s.SameRegisters u ∧ u.cmdIn = s.cmdIn) (fun u w hu => hu) ?_
    ⟨⟨rfl, rfl, rfl, rfl, rfl, rfl, rfl⟩, rfl⟩
  rintro u v ⟨hu, hcmd⟩ hv
  obtain ⟨x, hport, hop⟩ := microOp_of_commandTick hv
  obtain ⟨-, -, -, -, hcmd'⟩ := hport.sameSequencer
  exact ⟨hu.trans (hport.sameRegisters.trans (hop.sameRegisters htransfer)), hop.cmdIn.trans (hcmd'.trans hcmd)⟩

/-- R27 for any transaction of a busy block. -/
theorem upc_of_transaction {s : State} (hr : s.rst = false) (hb : s.busy = true) :
    (transaction s).upc = s.upc ∨ (transaction s).upc = s.upc + 1 ∨
      ((transaction s).upc = 0 ∧ (transaction s).busy = false ∧ ∃ w, (transaction s).rsps = s.rsps ++ [w]) := by
  rw [transaction_of_busy hr hb]
  cases h : tick (bodyOfWord s.ir) (answeredOfWord s.ir) s with
  | none => exact .inl rfl
  | some t =>
    obtain ⟨i, u, hport, hop⟩ := microOp_of_wordTick h
    obtain ⟨-, -, hupc, hrsps, -⟩ := hport.sameSequencer
    rw [← hupc, ← hrsps]
    exact hop.upc

/-- Settles O22: the first clause for any transaction, the others from what the answer or the done does to `UPC`. -/
theorem sequencerPointerAdvancesByOne : Obligations.SequencerPointerAdvancesByOne := by
  intro s hr hb
  refine ⟨upc_of_transaction hr hb, fun r a rest i hq ha hd => ?_, fun us d hq ht hn => ?_⟩
  · rw [transaction_of_busy hr hb, tick_bus hq, transfer_of_answer ha, answeredOfWord_ok hd, Option.getD_some]
    refine ⟨fun hlast hbus => ?_, ?_⟩
    · obtain hupc | ⟨⟨len, hi, hk⟩, -⟩ | ⟨hinit, hfalse, -⟩ := answeredOf_upc (decodeCommand_ok hd).1 r a
        { s with breq := none, busIn := rest, busLate := 0, trace := s.trace ++ [.bus r a] }
      · exact hupc
      · have := hlast len hi
        simp only at hk
        omega
      · exact absurd ⟨hinit, by simpa [boolAnswer] using hfalse⟩ hbus
    · rintro ⟨len, rfl, hk⟩
      exact if_pos hk
  · rw [transaction_of_busy hr hb, tick_timer hq ht, elapse_of_done hn]
    rfl

/-- Settles O11: each register by computation, the line table entry by entry. -/
theorem resetLeavesStatedValues : Obligations.ResetLeavesStatedValues := by
  refine ⟨rfl, rfl, rfl, rfl, rfl, rfl, rfl, rfl, fun l hl => ?_, rfl, rfl, rfl⟩
  interval_cases l <;> rfl

/-- Settles O17: it is an arm of `step`. -/
theorem stepGoesOnWithRunningCommand : Obligations.StepGoesOnWithRunningCommand :=
  fun _ _ hr hb hf hd => step_of_running hr hb hf hd

/-- Settles O51: the reset state is idle, and nothing has been emitted. -/
theorem resetMeetsInvariant : Obligations.ResetMeetsInvariant :=
  ⟨inv_of_hardReset .reset, nofun, nofun, nofun⟩

end Sys2Proof.Machine
end

section
/-! The ports: at most one request stands on them, and what the exchange of an emitted form does (R68, R70, R80). -/

namespace Sys2Proof.Machine

variable {i j : Instr} {r : BusReq} {a : Byte} {rest : List Byte} {s t : State} {w : Word}

/-! ### One request at a time -/

/-- No answer makes a request: the next one is made by a micro-operation of its own (R70). -/
theorem answeredOf_sameRequests (r : BusReq) (a : Byte) (s : State) :
    (answeredOf i r a s).breq = s.breq ∧ (answeredOf i r a s).treq = s.treq := by
  cases i with
  | init =>
    cases r with
    | init =>
      simp only [answeredOf, initAnswered]
      split <;> exact ⟨rfl, rfl⟩
    | _ => exact ⟨rfl, rfl⟩
  | pattern => cases r <;> exact ⟨rfl, rfl⟩
  | _ => exact ⟨rfl, rfl⟩

theorem answeredOfWord_sameRequests (r : BusReq) (a : Byte) (s : State) :
    (answeredOfWord w r a s).breq = s.breq ∧ (answeredOfWord w r a s).treq = s.treq := by
  cases hd : decodeCommand w with
  | error e =>
    rw [answeredOfWord_error hd]
    exact ⟨rfl, rfl⟩
  | ok i =>
    rw [answeredOfWord_ok hd]
    exact answeredOf_sameRequests r a s

/-- A transaction records the answer or the done it takes, and nothing else (R15). -/
theorem trace_of_wordTick (h : tick (bodyOfWord w) (answeredOfWord w) s = some t) :
    t.trace = s.trace ∨ ∃ e, t.trace = s.trace ++ [e] := by
  obtain ⟨r, -, h⟩ | ⟨-, us, -, h⟩ | ⟨-, -, h⟩ := tick_cases h
  · obtain ⟨a, rest, -, rfl⟩ := transfer_cases h
    obtain ⟨-, -, -, -, -, -, htrace, -⟩ := answeredOfWord_sameOutside (w := w) r a
      { s with breq := none, busIn := rest, busLate := 0, trace := s.trace ++ [.bus r a] }
    exact .inr ⟨.bus r a, htrace⟩
  · obtain ⟨n, -, rfl⟩ := elapse_cases h
    exact .inr ⟨.wait us, rfl⟩
  · obtain ⟨-, -, -, -, -, -, htrace, -⟩ := body_sameOutside h
    exact .inl htrace

/-- Where a request is outstanding, a transaction takes it from its port and makes no other (R70). -/
theorem requests_of_wordTick (hq : s.breq.isSome = true ∨ s.treq.isSome = true)
    (h : tick (bodyOfWord w) (answeredOfWord w) s = some t) :
    t.breq = none ∧ (t.treq = none ∨ t.treq = s.treq) := by
  obtain ⟨r, -, h⟩ | ⟨hb, us, -, h⟩ | ⟨hb, ht, -⟩ := tick_cases h
  · obtain ⟨a, rest, -, rfl⟩ := transfer_cases h
    obtain ⟨hbreq, htreq⟩ := answeredOfWord_sameRequests (w := w) r a
      { s with breq := none, busIn := rest, busLate := 0, trace := s.trace ++ [.bus r a] }
    exact ⟨hbreq, .inr htreq⟩
  · obtain ⟨n, -, rfl⟩ := elapse_cases h
    exact ⟨hb, .inl rfl⟩
  · simp [hb, ht] at hq

theorem oneRequest_of_wordTick (hb : s.breq = none)
    (h : tick (bodyOfWord w) (answeredOfWord w) s = some t) : t.breq = none ∨ t.treq = none := by
  obtain ⟨i, u, hport, hop⟩ := microOp_of_wordTick h
  obtain ⟨hb', ht'⟩ := hport.clears (.inl hb)
  exact hop.oneRequest hb' ht'

/-- Settles O23: a transaction that waits changes nothing; any other is a `tick` of the word held. -/
theorem oneRequestAtATime : Obligations.OneRequestAtATime := by
  intro s hr hb
  rw [transaction_of_busy hr hb]
  cases h : tick (bodyOfWord s.ir) (answeredOfWord s.ir) s with
  | none => exact ⟨.inl rfl, fun _ => .inl ⟨rfl, rfl⟩, fun hbreq _ => .inl hbreq⟩
  | some t =>
    exact ⟨trace_of_wordTick h, fun hq => .inr (requests_of_wordTick hq h),
      fun hbreq _ => oneRequest_of_wordTick hbreq h⟩

/-! ### The exchange of an emitted form -/

/-- The form is the running command's own request (R27). -/
theorem exchange_of_running (hb : s.busy = true) (hq : s.breq = some r) (ha : s.answers = a :: rest) :
    exchange r s = answeredOfWord s.ir r a { s with
      breq := none, busIn := rest, busLate := 0, trace := s.trace ++ [.bus r a] } := by
  simp [exchange, hq, hb, transfer_of_answer ha]

theorem exchange_of_idle (hs : s.Idle) (ha : s.answers = a :: rest) :
    exchange r s = { s with busIn := rest, busLate := 0, trace := s.trace ++ [.bus r a] } := by
  obtain ⟨hb, -, -, -, -, -, -, hq, ht⟩ := hs
  simp [exchange, hq, ht, hb, transfer_of_answer ha, State.dropAnswer]

/-- What the exchange of a form can do: nothing, put the form on the port, take an answer that no command waits for, or
complete the running command's micro-operation with its answer. -/
inductive Exchanged (r : BusReq) (s : State) : State → Prop
  | keeps : Exchanged r s s
  | drives : Exchanged r s (s.drive r)
  | drops (a : Byte) (rest : List Byte) :
      Exchanged r s { s with breq := none, busIn := rest, busLate := 0, trace := s.trace ++ [.bus r a] }
  | completes (a : Byte) (rest : List Byte) (hb : s.busy = true) (hq : s.breq = some r) (ha : s.answers = a :: rest) :
      Exchanged r s (answeredOfWord s.ir r a { s with
        breq := none, busIn := rest, busLate := 0, trace := s.trace ++ [.bus r a] })

theorem exchanged (r : BusReq) (s : State) : Exchanged r s (exchange r s) := by
  by_cases hport : s.breq = some r ∨ (s.breq = none ∧ s.treq = none ∧ s.busy = false)
  · cases ha : s.answers with
    | nil =>
      have hx : exchange r s = s.drive r := by simp [exchange, hport, transfer_of_no_answer ha]
      exact hx ▸ .drives
    | cons a rest =>
      cases hb : s.busy with
      | false =>
        have hx : exchange r s = { s with
            breq := none, busIn := rest, busLate := 0, trace := s.trace ++ [.bus r a] } := by
          rw [exchange, if_pos hport]
          simp [hb, transfer_of_answer ha, State.dropAnswer]
        exact hx ▸ .drops a rest
      | true =>
        have hq : s.breq = some r := hport.resolve_right (by simp [hb])
        exact exchange_of_running hb hq ha ▸ .completes a rest hb hq ha
  · have hx : exchange r s = s := if_neg hport
    exact hx.symm ▸ .keeps

/-! ### What a command does with the answer to a form -/

/-- INIT does not read the count of a transfer (R130); its two control requests are no forms. -/
theorem initAnswered_of_form (hr : requestOf i = some r) (a : Byte) (s : State) : initAnswered r a s = s.advance := by
  cases i <;> cases hr <;> rfl

theorem countOk_eq (c : Byte) (n : Half) : countOk c n = if c = 0 then n else n + 1 := by
  by_cases h : c = 0 <;> simp [countOk, transferOk, h]

theorem stopAfter_eq (c : Byte) (b : Bool) : stopAfter c b = (b || c == 0) := by
  simp [stopAfter, transferOk, bne]

/-- Settles O47: the exchange takes the answer, and each command does with it what its pseudocode says. -/
theorem emittedFormIsOneExchange : Obligations.EmittedFormIsOneExchange := by
  intro i r s a rest hr ha
  rw [exec_form hr]
  refine ⟨fun j hb hq hd => ?_, fun hs => congrArg _ (exchange_of_idle hs ha)⟩
  rw [exchange_of_running hb hq ha, answeredOfWord_ok hd]
  cases j with
  | init => simp only [answeredOf, initAnswered_of_form hr]; rfl
  | pattern slot =>
    cases r with
    | data => simp only [answeredOf, patternAnswered, patternRowSent, countOk_eq]; rfl
    | _ => simp only [answeredOf, patternAnswered, patternSelected, countOk_eq]; rfl
  | write len => simp only [answeredOf, writeAnswered, writeSent, countOk_eq, stopAfter_eq]; rfl
  | deinit | clear | home | setcur | shift | textdir | autoscroll | display | cursor | blink | blsup | blset | blget => rfl
  | _ => cases (decodeCommand_ok hd).1

/-! ### The frame of an emitted form -/

/-- The registers of a running command that the answer to a form may change (R27, R33). -/
def State.SameTransients (s t : State) : Prop :=
  t.upc = s.upc ∧ t.k = s.k ∧ t.nok = s.nok ∧ t.stop = s.stop ∧ t.cnt = s.cnt

/-- Everything else but the bus port and the trace. -/
def State.SameBesideTransients (s t : State) : Prop :=
  s.SameRegisters t ∧ t.busy = s.busy ∧
    t.ir = s.ir ∧ t.treq = s.treq ∧ t.cmdIn = s.cmdIn ∧ t.plIn = s.plIn ∧ t.rsps = s.rsps ∧
    t.timerIn = s.timerIn ∧ t.timerLate = s.timerLate

theorem State.SameBesideTransients.refl (s : State) : s.SameBesideTransients s :=
  ⟨⟨rfl, rfl, rfl, rfl, rfl, rfl, rfl⟩, rfl, rfl, rfl, rfl, rfl, rfl, rfl, rfl⟩

theorem answeredOf_sameBesideTransients (hr : requestOf i = some r) (a : Byte) (s : State) :
    s.SameBesideTransients (answeredOf j r a s) := by
  cases j with
  | init =>
    rw [answeredOf, initAnswered_of_form hr]
    exact .refl s
  | pattern => cases r <;> exact .refl s
  | _ => exact .refl s

theorem Exchanged.sameBesideTransients (hr : requestOf i = some r) (h : Exchanged r s t) : s.SameBesideTransients t := by
  cases h with
  | keeps | drives | drops => exact .refl s
  | completes a rest =>
    cases hd : decodeCommand s.ir with
    | error e =>
      rw [answeredOfWord_error hd]
      exact .refl s
    | ok j =>
      rw [answeredOfWord_ok hd]
      exact answeredOf_sameBesideTransients hr a
        { s with breq := none, busIn := rest, busLate := 0, trace := s.trace ++ [.bus r a] }

theorem Exchanged.sameTransients (h : Exchanged r s t)
    (hnone : s.busy = false ∨ s.breq ≠ some r ∨ s.answers = [] ∨ ∃ e, decodeCommand s.ir = .error e) :
    s.SameTransients t := by
  cases h with
  | keeps | drives | drops => exact ⟨rfl, rfl, rfl, rfl, rfl⟩
  | completes a rest hb hq ha =>
    obtain hb' | hq' | ha' | ⟨e, hd⟩ := hnone
    · simp [hb] at hb'
    · exact absurd hq hq'
    · simp [ha] at ha'
    · rw [answeredOfWord_error hd]
      exact ⟨rfl, rfl, rfl, rfl, rfl⟩

/-- R27: only a failed bus ends a command at an answer (R122), and `BusInit` is no form. -/
theorem answeredOf_upc_of_form (hc : j.isCommand = true) (hr : requestOf i = some r)
    (hlast : ∀ len, j = .write len → len.toNat ≤ s.k.toNat + 1) : (answeredOf j r a s).upc = s.upc + 1 := by
  obtain hupc | ⟨⟨len, hj, hk⟩, -⟩ | ⟨rfl, -⟩ := answeredOf_upc hc r a s
  · exact hupc
  · have := hlast len hj
    omega
  · cases i <;> cases hr

theorem answeredOf_stop (hr : requestOf i = some r) (hj : ∀ len, j ≠ .write len) :
    (answeredOf j r a s).stop = s.stop := by
  cases j with
  | init => rw [answeredOf, initAnswered_of_form hr]; rfl
  | pattern => cases r <;> rfl
  | write len => exact absurd rfl (hj len)
  | _ => rfl

theorem answeredOf_counts (hr : requestOf i = some r) (hw : ∀ len, j ≠ .write len) (hp : ∀ slot, j ≠ .pattern slot) :
    (answeredOf j r a s).k = s.k ∧ (answeredOf j r a s).nok = s.nok := by
  cases j with
  | init => rw [answeredOf, initAnswered_of_form hr]; exact ⟨rfl, rfl⟩
  | pattern slot => exact absurd rfl (hp slot)
  | write len => exact absurd rfl (hw len)
  | _ => exact ⟨rfl, rfl⟩

/-- INIT, PATTERN and WRITE keep no count for their response (R130, R181, R185). -/
theorem answeredOf_cnt (hr : requestOf i = some r)
    (hj : (∃ len, j = .write len) ∨ (∃ slot, j = .pattern slot) ∨ ∃ w h p m, j = .init w h p m) :
    (answeredOf j r a s).cnt = s.cnt := by
  obtain ⟨len, rfl⟩ | ⟨slot, rfl⟩ | ⟨w, h, p, m, rfl⟩ := hj
  · rfl
  · cases r <;> rfl
  · rw [answeredOf, initAnswered_of_form hr]; rfl

/-- Settles O49: the first two clauses from what an exchange can do, the third from what the running command does with the
answer. -/
theorem emittedFormsKeepRegisters : Obligations.EmittedFormsKeepRegisters := by
  intro i s t hi h
  obtain ⟨r, hr⟩ := requestOf_of_form hi
  rw [exec_form hr] at h
  cases h
  rw [hr]
  refine ⟨(exchanged r s).sameBesideTransients hr, (exchanged r s).sameTransients, fun j hb hq ha hd => ?_⟩
  obtain ⟨a, rest, ha⟩ := List.exists_cons_of_ne_nil ha
  rw [exchange_of_running hb hq ha, answeredOfWord_ok hd]
  refine ⟨fun hlast => answeredOf_upc_of_form (decodeCommand_ok hd).1 hr hlast, ?_, answeredOf_stop hr, answeredOf_counts hr,
    answeredOf_cnt hr⟩
  rintro ⟨len, rfl, hk⟩
  exact if_pos hk

end Sys2Proof.Machine
end

section
/-! The command words under their rows (R85): a word that meets its row's mask and match is the word of the row's
instruction, so the decoder and the encoder are inverse to each other. -/

namespace Sys2Proof

/-! ### A word as its four bytes -/

theorem commandWordOf_fields (w : Word) :
    commandWordOf (field w 0 8) (field w 8 8) (field w 16 8) (field w 24 8) = w := by
  apply BitVec.eq_of_getLsbD_eq
  intro i hi
  simp only [commandWordOf_bit, field, BitVec.getLsbD_extractLsb']
  grind

theorem commandWordOf_or (op a b c op' a' b' c' : Byte) :
    commandWordOf op a b c ||| commandWordOf op' a' b' c' =
      commandWordOf (op ||| op') (a ||| a') (b ||| b') (c ||| c') := by
  apply BitVec.eq_of_getLsbD_eq
  intro i _
  simp only [BitVec.getLsbD_or, commandWordOf_bit]
  split_ifs <;> rfl

section
variable (op a b c : Byte)

theorem wordBit_a {i : Nat} (hi : i < 8) : wordBit (commandWordOf op a b c) (8 + i) = a.getLsbD i := by
  rw [wordBit, commandWordOf_bit, if_neg (by omega), if_pos (by omega), Nat.add_sub_cancel_left]

theorem wordBit_b {i : Nat} (hi : i < 8) : wordBit (commandWordOf op a b c) (16 + i) = b.getLsbD i := by
  rw [wordBit, commandWordOf_bit, if_neg (by omega), if_neg (by omega), if_pos (by omega), Nat.add_sub_cancel_left]

theorem field_slot_commandWordOf : field (commandWordOf op a b c) 8 3 = a.extractLsb' 0 3 := by
  apply BitVec.eq_of_getLsbD_eq
  intro i hi
  have hbit : (commandWordOf op a b c).getLsbD (8 + i) = a.getLsbD i := wordBit_a op a b c (by omega)
  simp only [field, BitVec.getLsbD_extractLsb', hbit, Nat.zero_add]

theorem field_lines_commandWordOf : field (commandWordOf op a b c) 16 3 = b.extractLsb' 0 3 := by
  apply BitVec.eq_of_getLsbD_eq
  intro i hi
  have hbit : (commandWordOf op a b c).getLsbD (16 + i) = b.getLsbD i := wordBit_b op a b c (by omega)
  simp only [field, BitVec.getLsbD_extractLsb', hbit, Nat.zero_add]

/-! ### The operand bytes an encoder makes of the operands read from a word -/

theorem flagByte_of_word : flagByte (wordBit (commandWordOf op a b c) 8) = a &&& 0x01 := by
  rw [wordBit_a op a b c (i := 0) (by omega)]
  revert a
  decide

theorem textDirByte_of_word : flagByte (textDirOfBit (wordBit (commandWordOf op a b c) 8)).bit = a &&& 0x01 := by
  rw [← flagByte_of_word op a b c]
  cases wordBit (commandWordOf op a b c) 8 <;> rfl

theorem shiftByteA_of_word :
    shiftByteA (shiftDirOfBit (wordBit (commandWordOf op a b c) 8)) (wordBit (commandWordOf op a b c) 9) = a &&& 0x03 := by
  rw [wordBit_a op a b c (i := 0) (by omega), wordBit_a op a b c (i := 1) (by omega)]
  revert a
  decide

theorem patternByteA_of_word : patternByteA (field (commandWordOf op a b c) 8 3) = a &&& 0x07 := by
  rw [field_slot_commandWordOf]
  revert a
  decide

theorem initByteB_of_word :
    initByteB (field (commandWordOf op a b c) 16 3) (fontOfBit (wordBit (commandWordOf op a b c) 19))
      (modeOfBit (wordBit (commandWordOf op a b c) 20)) = b &&& 0x1F := by
  rw [field_lines_commandWordOf, wordBit_b op a b c (i := 3) (by omega), wordBit_b op a b c (i := 4) (by omega)]
  revert b
  decide

theorem byteA_of_word : field (commandWordOf op a b c) 8 8 = a &&& 0xFF :=
  (field_a_commandWordOf op a b c).trans BitVec.and_allOnes.symm

theorem byteB_of_word : field (commandWordOf op a b c) 16 8 = b &&& 0xFF :=
  (field_b_commandWordOf op a b c).trans BitVec.and_allOnes.symm

theorem lengthBytes_of_word :
    (field (commandWordOf op a b c) 16 16).extractLsb' 0 8 = b &&& 0xFF ∧
      (field (commandWordOf op a b c) 16 16).extractLsb' 8 8 = c &&& 0xFF := by
  have ones (x : Byte) : x &&& 0xFF = x := BitVec.and_allOnes
  rw [field_len_commandWordOf, ones b, ones c]
  exact ⟨(BitVec.extractLsb'_append_eq_of_add_le (by omega)).trans (BitVec.extractLsb'_eq_self ..),
    (BitVec.extractLsb'_append_eq_of_le (by omega)).trans (BitVec.extractLsb'_eq_self ..)⟩
end

/-! ### The rows -/

/-- A command word is its row's match with the operand bits of another word, where its operand bytes are those of that word
under the mask. -/
theorem commandWordOf_eq_match_or {op op' a b c a' b' c' ma mb mc : Byte} {mask pattern : Word} (ha : a = a' &&& ma)
    (hb : b = b' &&& mb) (hc : c = c' &&& mc) (hmask : ~~~mask = commandWordOf 0 ma mb mc)
    (hpattern : pattern = commandWordOf op 0 0 0) :
    commandWordOf op a b c = pattern ||| (commandWordOf op' a' b' c' &&& ~~~mask) := by
  simp only [hmask, hpattern, commandWordOf_and, commandWordOf_or, ha, hb, hc, BitVec.ofNat_eq_ofNat, BitVec.and_zero,
    BitVec.or_zero, BitVec.zero_or]

/-- The word of a row's instruction: the row's match, with the bits of the word that the mask leaves open. -/
theorem commandWord_of_row {n : Nat} {w : Word} {row : CommandRow} (h : commandRow n w = some row) :
    commandWord row.instr = row.pattern ||| (w &&& ~~~row.mask) := by
  rw [← commandWordOf_fields w] at h ⊢
  generalize field w 0 8 = op, field w 8 8 = a, field w 16 8 = b, field w 24 8 = c at h ⊢
  have zero (x : Byte) : 0 = x &&& 0 := BitVec.and_zero.symm
  unfold commandRow at h
  split at h <;> cases h <;> simp only [commandWord]
  case h_1 => exact commandWordOf_eq_match_or (byteA_of_word op a b c) (initByteB_of_word op a b c) (zero c) rfl rfl
  case h_5 => exact commandWordOf_eq_match_or (byteA_of_word op a b c) (byteB_of_word op a b c) (zero c) rfl rfl
  case h_6 => exact commandWordOf_eq_match_or (shiftByteA_of_word op a b c) (zero b) (zero c) rfl rfl
  case h_7 => exact commandWordOf_eq_match_or (textDirByte_of_word op a b c) (zero b) (zero c) rfl rfl
  case h_8 | h_9 | h_10 | h_11 | h_15 =>
    exact commandWordOf_eq_match_or (flagByte_of_word op a b c) (zero b) (zero c) rfl rfl
  case h_12 => exact commandWordOf_eq_match_or (patternByteA_of_word op a b c) (zero b) (zero c) rfl rfl
  case h_13 =>
    obtain ⟨hlow, hhigh⟩ := lengthBytes_of_word op a b c
    exact commandWordOf_eq_match_or (zero a) hlow hhigh rfl rfl
  case h_2 | h_3 | h_4 | h_14 | h_16 => exact commandWordOf_eq_match_or (zero a) (zero b) (zero c) rfl rfl

/-- Each command word has one spelling (R85). -/
theorem commandWord_of_decodeCommand {w : Word} {i : Instr} (h : decodeCommand w = .ok i) : commandWord i = w := by
  unfold decodeCommand at h
  split at h
  · cases h
  · rename_i row hrow
    split_ifs at h with hmask hwf
    cases h
    rw [commandWord_of_row hrow, ← hmask, ← BitVec.and_or_distrib_left, BitVec.or_not_self, BitVec.and_allOnes]

/-- Settles O1: the decoder reads every word the encoder writes. -/
theorem commandEncodingRoundTrip : Obligations.CommandEncodingRoundTrip :=
  fun _ hc hw => decodeCommand_commandWord hc hw

/-- Settles O2: under its row's mask a word is the match, and beside it the operand bits of the row's instruction. -/
theorem commandWordIsUnique : Obligations.CommandWordIsUnique :=
  fun _ _ h => ⟨commandWord_of_decodeCommand h, decodeCommand_ok h⟩

end Sys2Proof
end

section
/-! The closed set of emissions (R99, R265): every request a micro-program makes is in it, and a transaction records only
what stood on a port. -/

namespace Sys2Proof.Machine

variable {i : Instr} {s t : State} {w : Word}

/-! ### The bytes the commands compute -/

theorem emittedByte_entryModeOp (em : Byte) : emittedByte (entryModeOp (em &&& liveEm)) = true := by
  revert em
  decide

theorem emittedByte_displayControlOp (dc : Byte) : emittedByte (displayControlOp (dc &&& liveDc)) = true := by
  revert dc
  decide

theorem emittedByte_cgramOp (slot : BitVec 3) : emittedByte (cgramOp slot) = true := by
  revert slot
  decide

theorem emittedByte_shiftOp (r : ShiftDir) (co : Bool) : emittedByte (shiftOp r co) = true := by
  cases r <;> cases co <;> rfl

/-- Any DDRAM address is in the set. -/
theorem emittedByte_setcurOp (col line : BitVec 8) (lines : BitVec 3) (lat : LineTable) :
    emittedByte (setcurOp col line lines lat) = true := by
  unfold setcurOp
  generalize setcurSum col line lines lat = sum
  revert sum
  decide

/-- R124: `N` and `F` are never set together, so of the eight function sets only six are emitted. -/
theorem emittedByte_functionSetOp (tm : TransferMode) (h : BitVec 3) (p : Font) :
    emittedByte (functionSetOp (deriveFs tm h p)) = true := by
  revert h
  cases tm <;> cases p <;> decide

/-! ### The requests on the ports -/

/-- What stands on the two ports is within the closed set (R99, R265). -/
def State.PortsClosed (s : State) : Prop :=
  (∀ r, s.breq = some r → emittedRequest r = true) ∧ (∀ us, s.treq = some us → emittedWait us = true)

theorem State.PortsClosed.of_same (hs : s.PortsClosed) (hb : t.breq = s.breq) (ht : t.treq = s.treq) : t.PortsClosed := by
  simpa only [State.PortsClosed, hb, ht] using hs

theorem portsClosed_of_request {r : BusReq} (hs : s.PortsClosed) (hr : emittedRequest r = true)
    (h : s.request r = some t) : t.PortsClosed := by
  obtain ⟨-, hwait⟩ := hs
  cases h
  exact ⟨fun _ hr' => by cases hr'; exact hr, hwait⟩

theorem portsClosed_of_instr {op : Byte} (hs : s.PortsClosed) (hop : emittedByte op = true)
    (h : s.request (.instr op) = some t) : t.PortsClosed :=
  portsClosed_of_request (r := .instr op) hs hop h

theorem portsClosed_of_wait {us : Half} (hs : s.PortsClosed) (hus : emittedWait us = true) (h : s.wait us = some t) :
    t.PortsClosed := by
  obtain ⟨hreq, -⟩ := hs
  cases h
  exact ⟨hreq, fun _ hus' => by cases hus'; exact hus⟩

theorem portsClosed_of_advance (hs : s.PortsClosed) (h : some s.advance = some t) : t.PortsClosed := by
  cases h
  exact hs

theorem portsClosed_of_respond {st : Status} {val : Half} (hs : s.PortsClosed) (h : some (s.respond st val) = some t) :
    t.PortsClosed := by
  cases h
  exact hs

theorem portsClosed_of_drain {st : Status} {len : Nat} (hs : s.PortsClosed) (h : s.drain st len = some t) :
    t.PortsClosed := by
  obtain ⟨-, b, rest, -, rfl⟩ | ⟨-, rfl⟩ := drain_cases h <;> exact hs

theorem portsClosed_of_admission (hs : s.PortsClosed) (h : s.admission i = some t) : t.PortsClosed := by
  obtain ⟨-, -, rfl⟩ | ⟨-, -, h⟩ | ⟨-, h⟩ := admission_cases h
  · exact hs
  · exact portsClosed_of_drain hs h
  · exact portsClosed_of_drain hs h

/-! ### The micro-programs -/

theorem emittedRequest_burstRequest (hfs : emittedByte (functionSetOp s.readFs) = true) :
    emittedRequest (burstRequest s) = true := by
  unfold burstRequest
  split
  · rfl
  · exact hfs

/-- INIT emits the function set from step s6 on, when `FS` is the one it derived (R120, R124). -/
theorem portsClosed_of_microInit {wd : BitVec 8} {h : BitVec 3} {p : Font} {m : TransferMode} (hs : s.PortsClosed)
    (hprogress : s.InitProgress wd h p) (hm : microInit wd h p m s = some t) : t.PortsClosed := by
  obtain ⟨hderived, -⟩ := hprogress
  have hfs (hu : 4 ≤ s.upc) : emittedByte (functionSetOp s.readFs) = true := by
    rw [State.readFs, hderived hu, deriveFs_live]
    exact emittedByte_functionSetOp s.tm h p
  unfold microInit at hm
  split at hm
  case h_1 | h_2 | h_16 => exact portsClosed_of_request hs rfl hm
  case h_3 | h_4 | h_14 | h_18 | h_20 => cases hm; exact hs
  case h_5 | h_7 | h_9 | h_11 | h_17 => exact portsClosed_of_wait hs rfl hm
  case h_6 hu | h_8 hu | h_10 hu => exact portsClosed_of_request hs (emittedRequest_burstRequest (hfs (by omega))) hm
  case h_12 =>
    split at hm
    · exact portsClosed_of_request hs rfl hm
    · exact portsClosed_of_advance hs hm
  case h_13 hu => exact portsClosed_of_instr hs (hfs (by omega)) hm
  case h_15 => exact portsClosed_of_instr hs (emittedByte_displayControlOp s.dc) hm
  case h_19 => exact portsClosed_of_instr hs (emittedByte_entryModeOp s.em) hm
  case h_21 => cases hm

theorem portsClosed_of_microPattern {slot : BitVec 3} (hs : s.PortsClosed) (h : microPattern slot s = some t) :
    t.PortsClosed := by
  unfold microPattern at h
  split at h
  · cases h
  · exact portsClosed_of_instr hs (emittedByte_cgramOp slot) h
  · split at h
    · obtain ⟨b, rest, -, rfl⟩ := take_cases h
      exact portsClosed_of_request (s := { s with plIn := rest }) hs rfl rfl
    · exact portsClosed_of_respond hs h

theorem portsClosed_of_microWrite {len : BitVec 16} (hs : s.PortsClosed) (h : microWrite len s = some t) :
    t.PortsClosed := by
  unfold microWrite at h
  split at h
  · cases h
    exact hs
  · split at h
    · obtain ⟨b, rest, -, rfl⟩ := take_cases h
      unfold writeByte
      split
      · exact hs
      · exact portsClosed_of_request (s := { s with plIn := rest }) (r := .data b) hs rfl rfl
    · exact portsClosed_of_advance hs h
  · exact portsClosed_of_respond hs h
  · cases h

theorem portsClosed_of_microEntryMode {mask : Byte} {b : Bool} (hs : s.PortsClosed)
    (h : microEntryMode mask b s = some t) : t.PortsClosed := by
  unfold microEntryMode at h
  split at h
  · cases h
    exact hs
  · exact portsClosed_of_instr hs (emittedByte_entryModeOp s.em) h
  · exact portsClosed_of_respond hs h
  · cases h

theorem portsClosed_of_microDisplayControl {mask : Byte} {b : Bool} (hs : s.PortsClosed)
    (h : microDisplayControl mask b s = some t) : t.PortsClosed := by
  unfold microDisplayControl at h
  split at h
  · cases h
    exact hs
  · exact portsClosed_of_instr hs (emittedByte_displayControlOp s.dc) h
  · exact portsClosed_of_respond hs h
  · cases h

theorem portsClosed_of_microProgram (hs : s.PortsClosed) (hp : s.Progress i) (h : microProgram i s = some t) :
    t.PortsClosed := by
  cases i with
  | init => exact portsClosed_of_microInit hs hp h
  | deinit =>
    simp only [microProgram, microDeinit] at h
    split at h <;> cases h
    exact hs
  | clear | home =>
    simp only [microProgram, microClear, microHome] at h
    split at h
    · exact portsClosed_of_request hs rfl h
    · exact portsClosed_of_wait hs rfl h
    · exact portsClosed_of_respond hs h
    · cases h
  | setcur col line =>
    simp only [microProgram, microSetcur] at h
    split at h
    · exact portsClosed_of_advance hs h
    · exact portsClosed_of_instr hs (emittedByte_setcurOp col line s.lines s.lat) h
    · exact portsClosed_of_respond hs h
    · cases h
  | shift r co =>
    simp only [microProgram, microShift] at h
    split at h
    · exact portsClosed_of_advance hs h
    · exact portsClosed_of_instr hs (emittedByte_shiftOp r co) h
    · exact portsClosed_of_respond hs h
    · cases h
  | textdir | autoscroll => exact portsClosed_of_microEntryMode hs h
  | display | cursor | blink => exact portsClosed_of_microDisplayControl hs h
  | pattern => exact portsClosed_of_microPattern hs h
  | write => exact portsClosed_of_microWrite hs h
  | blsup | blset | blget =>
    simp only [microProgram, microBlsup, microBlset, microBlget] at h
    split at h
    · exact portsClosed_of_request hs rfl h
    · exact portsClosed_of_respond hs h
    · cases h
  | _ => cases h

/-- The invariant says what INIT has behind it at each step, and that what runs past its admission is a command. -/
theorem portsClosed_of_body (hs : s.PortsClosed) (hrun : s.RunsLegally) (h : bodyOfWord s.ir s = some t) :
    t.PortsClosed := by
  obtain ⟨-, hrun⟩ := hrun
  cases hd : decodeCommand s.ir with
  | error e =>
    rw [bodyOfWord_error hd] at h
    exact portsClosed_of_drain hs h
  | ok i =>
    rw [bodyOfWord_ok hd, commandBody] at h
    split_ifs at h with hu
    · exact portsClosed_of_admission hs h
    · obtain ⟨j, hj, -, hp⟩ := hrun hu
      cases hj.symm.trans hd
      exact portsClosed_of_microProgram hs hp h

/-! ### A transaction and a step -/

theorem State.EmitsClosed.ports (hs : s.EmitsClosed) : s.PortsClosed := by
  obtain ⟨-, hports⟩ := hs
  exact hports

theorem State.EmitsClosed.of_trace (hs : s.EmitsClosed) (htrace : t.trace = s.trace) (hports : t.PortsClosed) :
    t.EmitsClosed := by
  obtain ⟨hclosed, -⟩ := hs
  exact ⟨htrace ▸ hclosed, hports⟩

/-- The trace gains an event of the closed set. -/
theorem State.EmitsClosed.of_event {e : Event} (hs : s.EmitsClosed) (he : emittedEvent e = true)
    (htrace : t.trace = s.trace ++ [e]) (hports : t.PortsClosed) : t.EmitsClosed := by
  obtain ⟨hclosed, -⟩ := hs
  refine ⟨?_, hports⟩
  rw [htrace, List.forall_mem_append]
  exact ⟨hclosed, by simpa using he⟩

/-- What a transaction records stood on a port before, and what it requests the micro-program requests. -/
theorem emitsClosed_of_tick (hinv : s.Inv) (hb : s.busy = true) (hs : s.EmitsClosed)
    (h : tick (bodyOfWord s.ir) (answeredOfWord s.ir) s = some t) : t.EmitsClosed := by
  obtain ⟨hbus, htimer⟩ := hs.ports
  obtain ⟨r, hq, h⟩ | ⟨hq, us, hu, h⟩ | ⟨-, -, h⟩ := tick_cases h
  · obtain ⟨a, rest, -, rfl⟩ := transfer_cases h
    obtain ⟨hbreq, htreq⟩ := answeredOfWord_sameRequests (w := s.ir) r a
      { s with breq := none, busIn := rest, busLate := 0, trace := s.trace ++ [.bus r a] }
    obtain ⟨-, -, -, -, -, -, htrace, -⟩ := answeredOfWord_sameOutside (w := s.ir) r a
      { s with breq := none, busIn := rest, busLate := 0, trace := s.trace ++ [.bus r a] }
    refine hs.of_event (e := .bus r a) (hbus r hq) htrace ?_
    exact State.PortsClosed.of_same (s := { s with breq := none }) ⟨nofun, htimer⟩ hbreq htreq
  · obtain ⟨n, -, rfl⟩ := elapse_cases h
    exact hs.of_event (e := .wait us) (htimer us hu) rfl ⟨hbus, nofun⟩
  · obtain ⟨-, -, -, -, -, -, htrace, -⟩ := body_sameOutside h
    obtain ⟨-, -, -, -, hrun⟩ := hinv
    exact hs.of_trace htrace (portsClosed_of_body hs.ports (hrun hb) h)

theorem emitsClosed_of_accept {ws : List Word} (hs : s.EmitsClosed) : ({ s with cmdIn := ws }.accept w).EmitsClosed :=
  hs.of_trace rfl ⟨nofun, nofun⟩

/-- A request that reset cuts off stood on a port before. -/
theorem emitsClosed_of_hardReset (hs : s.EmitsClosed) : s.hardReset.EmitsClosed := by
  obtain ⟨hclosed, hbus, htimer⟩ := hs
  refine ⟨?_, nofun, nofun⟩
  rw [State.hardReset_trace, List.forall_mem_append, List.forall_mem_append]
  refine ⟨⟨hclosed, fun e he => ?_⟩, fun e he => ?_⟩
  · obtain ⟨r, hr, rfl⟩ := Option.map_eq_some_iff.mp (Option.mem_toList.mp he)
    exact hbus r hr
  · obtain ⟨us, hu, rfl⟩ := Option.map_eq_some_iff.mp (Option.mem_toList.mp he)
    exact htimer us hu

theorem step_of_reset (hr : s.rst = true) : step s = .next s.hardReset := by
  simp [step, hr]

/-- Settles O53: the invariant holds at each transaction of the step, so each keeps to the closed set. -/
theorem stepEmitsOnlyClosedSet : Obligations.StepEmitsOnlyClosedSet := by
  intro s t hinv hs h
  cases hr : s.rst with
  | true =>
    cases (step_of_reset hr).symm.trans h
    exact emitsClosed_of_hardReset hs
  | false =>
    refine And.right (step_keeps (P := fun u => u.Inv ∧ u.EmitsClosed) hr hinv.busy_or_free ⟨hinv, hs⟩
      (fun _ _ _ => ⟨inv_of_accept hinv, emitsClosed_of_accept hs⟩) ?_ h)
    rintro u v ⟨hu, hc⟩ hb hv
    exact ⟨inv_of_tick hu hb hv, emitsClosed_of_tick hu hb hc hv⟩

end Sys2Proof.Machine
end

section
/-! The illegal words (R100): which case of the decoder names which error. -/

namespace Sys2Proof

variable {w : Word} {row : CommandRow}

/-- R100 (a): the codes with no row. -/
theorem commandRow_eq_none_iff {op : Nat} : commandRow op w = none ↔ op = 0 ∨ 0x11 ≤ op := by
  unfold commandRow
  split
  case h_17 => grind
  all_goals simp

theorem decodeCommand_of_no_row (hr : commandRow (opcode w).toNat w = none) :
    decodeCommand w = .error .reservedOpcode := by
  simp [decodeCommand, hr]

theorem decodeCommand_of_mask_miss (hr : commandRow (opcode w).toNat w = some row) (hm : w &&& row.mask ≠ row.pattern) :
    decodeCommand w = .error .mustBeZero := by
  simp [decodeCommand, hr, hm]

theorem decodeCommand_of_ill_formed (hr : commandRow (opcode w).toNat w = some row)
    (hm : w &&& row.mask = row.pattern) (hw : row.instr.wellFormed = false) : decodeCommand w = .error .lineCount := by
  simp [decodeCommand, hr, hm, hw]

/-- Everything the decoder can answer, each answer with its reason. -/
theorem decodeCommand_cases (w : Word) :
    (decodeCommand w = .error .reservedOpcode ∧ commandRow (opcode w).toNat w = none) ∨
      ∃ row, commandRow (opcode w).toNat w = some row ∧
        ((decodeCommand w = .error .mustBeZero ∧ w &&& row.mask ≠ row.pattern) ∨
          (w &&& row.mask = row.pattern ∧
            ((decodeCommand w = .error .lineCount ∧ row.instr.wellFormed = false) ∨
              (decodeCommand w = .ok row.instr ∧ row.instr.wellFormed = true)))) := by
  cases hr : commandRow (opcode w).toNat w with
  | none => exact .inl ⟨decodeCommand_of_no_row hr, rfl⟩
  | some row =>
    refine .inr ⟨row, rfl, ?_⟩
    by_cases hm : w &&& row.mask = row.pattern
    · refine .inr ⟨hm, ?_⟩
      cases hw : row.instr.wellFormed with
      | false => exact .inl ⟨decodeCommand_of_ill_formed hr hm hw, rfl⟩
      | true => exact .inr ⟨decodeCommand_of_row hr hm hw, rfl⟩
    · exact .inl ⟨decodeCommand_of_mask_miss hr hm, hm⟩

/-- INIT is the only command with a value constraint (R85). -/
theorem commandRow_ill_formed {op : Nat} (hr : commandRow op w = some row) (hw : row.instr.wellFormed = false) :
    row.mask = 0xFFE000FF ∧ row.pattern = 0x01 ∧ legalLines (field w 16 3) = false := by
  unfold commandRow at hr
  split at hr <;> cases hr
  case h_1 => exact ⟨rfl, rfl, hw⟩
  all_goals cases hw

theorem illegalLines_iff (h : BitVec 3) : legalLines h = false ↔ h = 0 ∨ 5 ≤ h.toNat := by
  revert h
  decide

/-- INIT's match fixes the code, so the row of the word is INIT's. -/
theorem commandRow_of_init_match (hm : w &&& 0xFFE000FF = 0x01) :
    ∃ row, commandRow (opcode w).toNat w = some row ∧ row.mask = 0xFFE000FF ∧ row.pattern = 0x01 ∧
      row.instr.wellFormed = legalLines (field w 16 3) := by
  have hop : opcode w = field (w &&& 0xFFE000FF) 0 5 := by
    rw [opcode, field, field, BitVec.extractLsb'_and]
    exact BitVec.and_allOnes.symm
  rw [hop, hm]
  exact ⟨_, rfl, rfl, rfl, rfl⟩

/-- R100 (c). -/
theorem decodeCommand_eq_lineCount_iff (w : Word) : decodeCommand w = .error .lineCount ↔
    w &&& 0xFFE000FF = 0x01 ∧ (field w 16 3 = 0 ∨ 5 ≤ (field w 16 3).toNat) := by
  rw [← illegalLines_iff]
  constructor
  · intro h
    obtain ⟨h', -⟩ | ⟨row, hr, ⟨h', -⟩ | ⟨hm, ⟨-, hw⟩ | ⟨h', -⟩⟩⟩ := decodeCommand_cases w
    · simp [h] at h'
    · simp [h] at h'
    · obtain ⟨hmask, hpattern, hl⟩ := commandRow_ill_formed hr hw
      exact ⟨hmask ▸ hpattern ▸ hm, hl⟩
    · simp [h] at h'
  · rintro ⟨hm, hl⟩
    obtain ⟨row, hr, hmask, hpattern, hw⟩ := commandRow_of_init_match hm
    exact decodeCommand_of_ill_formed hr (hmask ▸ hpattern ▸ hm) (hw.trans hl)

/-- Settles O3: each answer of the decoder excludes the reasons of the others. -/
theorem illegalWordsAreExactlyR100 : Obligations.IllegalWordsAreExactlyR100 := by
  intro w
  have hreserved : commandRow (opcode w).toNat w = none ↔ opcode w = 0 ∨ 0x11 ≤ (opcode w).toNat := by
    rw [commandRow_eq_none_iff, BitVec.toNat_eq (y := 0)]
    rfl
  rw [← hreserved, ← decodeCommand_eq_lineCount_iff]
  obtain ⟨h, hr⟩ | ⟨row, hr, ⟨h, hm⟩ | ⟨hm, ⟨h, -⟩ | ⟨h, -⟩⟩⟩ := decodeCommand_cases w
  · simp [h, hr]
  · simp [h, hr, hm]
  · simp [h, hr, hm]
  · simp [h, hr, hm]

end Sys2Proof
end

section
/-! The emitted forms and the bus requests that carry them (R88 to R97), and the kinds and arguments of the port (R82). -/

namespace Sys2Proof

/-! ### A byte under the mask of a form -/

theorem entryModeByte_of_mask {b : Byte} : b &&& 0xFC = 0x04 → entryModeByte (b.getLsbD 1) (b.getLsbD 0) = b := by
  revert b
  decide

theorem displayControlByte_of_mask {b : Byte} :
    b &&& 0xF8 = 0x08 → displayControlByte (b.getLsbD 2) (b.getLsbD 1) (b.getLsbD 0) = b := by
  revert b
  decide

theorem shiftByte_of_mask {b : Byte} : b &&& 0xF3 = 0x10 → shiftByte (b.getLsbD 3) (b.getLsbD 2) = b := by
  revert b
  decide

theorem functionSetByte_of_mask {b : Byte} :
    b &&& 0xE3 = 0x20 → functionSetByte (b.getLsbD 4) (b.getLsbD 3) (b.getLsbD 2) = b := by
  revert b
  decide

theorem cgramByte_of_mask {b : Byte} : b &&& 0xC7 = 0x40 → cgramByte (b.extractLsb' 3 3) = b := by
  revert b
  decide

theorem ddramByte_of_mask {b : Byte} : b &&& 0x80 = 0x80 → ddramByte (b.extractLsb' 0 7) = b := by
  revert b
  decide

/-! ### The two directions -/

theorem requestOf_of_decodeLcdByte {b : Byte} {i : Instr} (h : decodeLcdByte b = .ok i) :
    requestOf i = some (.instr b) := by
  unfold decodeLcdByte at h
  split_ifs at h with hclear hhome hentry hdisplay hshift hfunction hcgram hddram <;> cases h
  · rw [hclear]; rfl
  · rw [hhome]; rfl
  · rw [requestOf, entryModeByte_of_mask hentry]
  · rw [requestOf, displayControlByte_of_mask hdisplay]
  · rw [requestOf, shiftByte_of_mask hshift]
  · rw [requestOf, functionSetByte_of_mask hfunction]
  · rw [requestOf, cgramByte_of_mask hcgram]
  · rw [requestOf, ddramByte_of_mask hddram]

theorem requestOf_of_decodeLcdNibble {n : BitVec 4} {i : Instr} (h : decodeLcdNibble n = .ok i) :
    requestOf i = some (.nibble n) := by
  unfold decodeLcdNibble at h
  split_ifs at h with hresync hmodefix <;> cases h
  · rw [hresync]; rfl
  · rw [hmodefix]; rfl

/-- The form a request decodes to is carried by that request alone. -/
theorem requestOf_of_decodeRequest {r : BusReq} {i : Instr} (h : decodeRequest r = .ok i) : requestOf i = some r := by
  cases r with
  | instr op => exact requestOf_of_decodeLcdByte h
  | nibble n => exact requestOf_of_decodeLcdNibble h
  | data b => cases h; rfl
  | init | negotiate | blSupported | blSet | blGet => cases h

theorem decodeRequest_of_requestOf {i : Instr} {r : BusReq} (h : requestOf i = some r) : decodeRequest r = .ok i := by
  cases i <;> cases h
  case lcdClear | lcdHome | lcdNibbleResync | lcdNibbleModefix | lcdData => rfl
  case lcdEntryMode i s => cases i <;> cases s <;> rfl
  case lcdDisplayControl d c b => cases d <;> cases c <;> cases b <;> rfl
  case lcdShift s r => cases s <;> cases r <;> rfl
  case lcdFunctionSet l n f => cases l <;> cases n <;> cases f <;> rfl
  case lcdSetCgram slot => revert slot; decide
  case lcdSetDdram addr => revert addr; decide

/-- Settles O4: each direction of the correspondence is a lemma of its own. -/
theorem emittedFormRoundTrip : Obligations.EmittedFormRoundTrip := by
  intro i r
  constructor
  · intro h
    have hd := decodeRequest_of_requestOf h
    exact ⟨hd, decodeRequest_ok hd⟩
  · rintro ⟨hd, -⟩
    exact requestOf_of_decodeRequest hd

/-- Settles O5: each form's bytes are those of its base and its bits, by computation at every operand. -/
theorem emittedInstructionBytes : Obligations.EmittedInstructionBytes := by
  refine ⟨rfl, rfl, fun i s => ?_, fun d c b => ?_, fun l n f => ?_, fun slot => ?_, fun addr => ?_⟩
  · cases i <;> cases s <;> rfl
  · cases d <;> cases c <;> cases b <;> rfl
  · cases l <;> cases n <;> cases f <;> rfl
  · revert slot; decide
  · revert addr; decide

/-- Settles O6: the shift byte by computation at both bits, the rest as defined. -/
theorem shiftNibblesAndData : Obligations.ShiftNibblesAndData := by
  refine ⟨fun s r => ?_, rfl, rfl, fun _ => rfl⟩
  cases s <;> cases r <;> rfl

/-- Settles O7: by evaluation of the decoders. -/
theorem knownWordsDecode : Obligations.KnownWordsDecode :=
  ⟨rfl, rfl, rfl, rfl, rfl, rfl, rfl, rfl, rfl⟩

end Sys2Proof

namespace Sys2Proof.Machine

/-! ### The port and the response word -/

/-- Settles O9: each request by its kind. -/
theorem busPortEncodingRoundTrip : Obligations.BusPortEncodingRoundTrip := by
  refine ⟨fun r => ?_, ⟨rfl, rfl⟩, fun m => ⟨rfl, ?_⟩, fun _ => ⟨rfl, rfl⟩, fun n => ⟨rfl, ?_⟩, fun _ => ⟨rfl, rfl⟩,
    ⟨rfl, rfl⟩, fun _ => ⟨rfl, rfl⟩, ⟨rfl, rfl⟩⟩
  · cases r with
    | init | instr | data | blSupported | blGet => rfl
    | negotiate m => cases m <;> rfl
    | nibble n => revert n; decide
    | blSet e => cases e <;> rfl
  · cases m <;> rfl
  · revert n; decide

/-- Settles O10: the fields are the parts the word is put together from. -/
theorem responseWordFields : Obligations.ResponseWordFields := by
  intro st val
  refine ⟨?_, ?_, ?_, rfl, rfl, rfl, rfl⟩
  · exact (BitVec.extractLsb'_append_eq_of_add_le (by omega)).trans (BitVec.extractLsb'_eq_self ..)
  · exact (BitVec.extractLsb'_append_eq_of_le (by omega)).trans
      ((BitVec.extractLsb'_append_eq_of_add_le (by omega)).trans (BitVec.extractLsb'_eq_self ..))
  · exact (BitVec.extractLsb'_append_eq_of_le (by omega)).trans
      ((BitVec.extractLsb'_append_eq_of_le (by omega)).trans (BitVec.extractLsb'_eq_self ..))

end Sys2Proof.Machine
end

section
/-! The assembler's words (R104): its shifted operands are the bytes the encoder puts together. -/

namespace Sys2Proof

/-- Bit by bit: where one byte has the bit, the others have none. -/
theorem commandWordOf_eq_shifts (op a b c : Byte) :
    commandWordOf op a b c =
      op.setWidth 32 ||| a.setWidth 32 <<< 8 ||| b.setWidth 32 <<< 16 ||| c.setWidth 32 <<< 24 := by
  apply BitVec.eq_of_getLsbD_eq
  intro i hi
  have above (x : Byte) (j : Nat) (hj : 8 ≤ j) : x.getLsbD j = false := BitVec.getLsbD_of_ge x j hj
  simp only [commandWordOf_bit, BitVec.getLsbD_or, BitVec.getLsbD_shiftLeft, BitVec.getLsbD_setWidth]
  grind

theorem length_shifted (len : BitVec 16) :
    len.setWidth 32 <<< 16 =
      (len.extractLsb' 0 8).setWidth 32 <<< 16 ||| (len.extractLsb' 8 8).setWidth 32 <<< 24 := by
  apply BitVec.eq_of_getLsbD_eq
  intro i hi
  simp only [BitVec.getLsbD_or, BitVec.getLsbD_shiftLeft, BitVec.getLsbD_setWidth, BitVec.getLsbD_extractLsb']
  have hj : 24 ≤ i → 8 + (i - 24) = i - 16 := by omega
  grind

theorem initByteB_shifted (h : BitVec 3) (p : Font) (m : TransferMode) :
    (initByteB h p m).setWidth 32 <<< 16 = h.setWidth 32 <<< 16 |||
      (BitVec.ofBool p.bit).setWidth 32 <<< 19 ||| (BitVec.ofBool m.bit).setWidth 32 <<< 20 := by
  revert h
  cases p <;> cases m <;> decide

/-- Settles O8: the operands that span their fields by the byte lemmas, the narrow ones at every value. -/
theorem assemblerWordsAgree : Obligations.AssemblerWordsAgree := by
  intro i
  cases i with
  | init w h p m =>
    simp [Machine.asmWord, commandWord, Instr.isCommand, commandWordOf_eq_shifts, initByteB_shifted, BitVec.or_assoc]
  | setcur col line =>
    simp [Machine.asmWord, commandWord, Instr.isCommand, commandWordOf_eq_shifts]
  | write len =>
    simp [Machine.asmWord, commandWord, Instr.isCommand, commandWordOf_eq_shifts, length_shifted, BitVec.or_assoc]
  | deinit | clear | home | blsup | blget => rfl
  | shift r co => cases r <;> cases co <;> rfl
  | textdir d => cases d <;> rfl
  | autoscroll b | display b | cursor b | blink b | blset b => cases b <;> rfl
  | pattern slot => revert slot; decide
  | _ => rfl

end Sys2Proof
end

section
/-! A step is one or more of the transactions the spec counts (R81, D1). -/

namespace Sys2Proof.Machine

variable {i : Instr} {s t : State} {r : BusReq} {w : Word} {ws : List Word}

/-! ### What one transaction is -/

theorem transaction_of_reset (hr : s.rst = true) : transaction s = s.hardReset := by
  simp [transaction, hr]

theorem transaction_of_request (hr : s.rst = false) (hb : s.busy = false) (hq : s.breq = some r) :
    transaction s = (s.transfer r (State.dropAnswer r)).getD s := by
  simp [transaction, hr, hb, hq]

theorem transaction_of_no_word (hr : s.rst = false) (hb : s.busy = false) (hq : s.breq = none) (hc : s.cmdIn = []) :
    transaction s = s := by
  simp [transaction, hr, hb, hq, State.takeCommand, hc]

theorem transaction_of_word (hr : s.rst = false) (hb : s.busy = false) (hq : s.breq = none) (hc : s.cmdIn = w :: ws) :
    transaction s = { s with cmdIn := ws }.accept w := by
  simp [transaction, hr, hb, hq, State.takeCommand, hc, State.cmdReady]

/-- The exchange of the request that stands on the port is one transaction. -/
theorem exchange_eq_transaction (hr : s.rst = false) (hq : s.breq = some r) : exchange r s = transaction s := by
  have hdrive : s.drive r = s := by simp [State.drive, ← hq]
  cases hb : s.busy with
  | true =>
    rw [transaction_of_busy hr hb, tick_bus hq]
    simp [exchange, hq, hb, hdrive]
  | false =>
    rw [transaction_of_request hr hb hq]
    simp [exchange, hq, hb, hdrive]

/-! ### A run is transactions -/

/-- A run that is allowed a transaction makes one, or waits, which is a transaction too. -/
theorem run_succ_eq_transactions (n : Nat) {s : State} (hr : s.rst = false) (hb : s.busy = true) :
    ∃ m, run (bodyOfWord s.ir) (answeredOfWord s.ir) (n + 1) s = transactions (m + 1) s := by
  have hone := transaction_of_busy hr hb
  cases ht : tick (bodyOfWord s.ir) (answeredOfWord s.ir) s with
  | none =>
    rw [ht, Option.getD_none] at hone
    exact ⟨0, by rw [run_waits ht, transactions, transactions, hone]⟩
  | some t =>
    rw [ht, Option.getD_some] at hone
    cases hbt : t.busy with
    | false => exact ⟨0, by rw [run_ends ht hbt, transactions, transactions, hone]⟩
    | true =>
      cases n with
      | zero => exact ⟨0, by rw [run_goes_on ht hbt, run, transactions, transactions, hone]⟩
      | succ n =>
        obtain ⟨hrst, -, hir⟩ := tick_keeps ht
        obtain ⟨m, hm⟩ := run_succ_eq_transactions n (hrst.trans hr) hbt
        exact ⟨m + 1, by rw [run_goes_on ht hbt, transactions, hone, ← hm, hir hbt]⟩

theorem runBound_eq_succ (len : Nat) : runBound len = 3 * len + 63 + 1 := rfl

/-- The word held is that of the command it decodes to, so the meaning of the command goes on with it. -/
theorem exec_running_eq_transactions (hr : s.rst = false) (hb : s.busy = true) (hd : decodeCommand s.ir = .ok i) :
    ∃ m, exec i s = .next (transactions (m + 1) s) := by
  obtain ⟨m, hm⟩ := run_succ_eq_transactions (3 * payloadLength i + 63) hr hb
  refine ⟨m, ?_⟩
  rw [exec_command (decodeCommand_ok hd).1, runCommand_of_running hb (commandWord_of_decodeCommand hd).symm,
    runBound_eq_succ, ← hm, bodyOfWord_ok hd, answeredOfWord_ok hd]

theorem runIllegal_eq_transactions {e : DecodeError} (hr : s.rst = false) (hb : s.busy = true)
    (hd : decodeCommand s.ir = .error e) : ∃ m, runIllegal s.ir s = transactions (m + 1) s := by
  rw [runIllegal_eq_run hd, runBound_eq_succ]
  exact run_succ_eq_transactions _ hr hb

/-! ### A step is transactions -/

/-- A form on the port: the answer is one transaction. -/
theorem step_of_form_eq_transaction (hr : s.rst = false) (hq : s.breq = some r) (hd : decodeRequest r = .ok i) :
    step s = .next (transaction s) := by
  rw [step_of_form hr hq hd, exec_form (requestOf_of_decodeRequest hd), exchange_eq_transaction hr hq]

theorem step_of_busy_eq_transactions (hr : s.rst = false) (hb : s.busy = true)
    (hf : ∀ r j, s.breq = some r → decodeRequest r ≠ .ok j) : ∃ m, step s = .next (transactions (m + 1) s) := by
  cases hd : decodeCommand s.ir with
  | ok i =>
    rw [step_of_running hr hb hf hd]
    exact exec_running_eq_transactions hr hb hd
  | error e =>
    obtain ⟨m, hm⟩ := runIllegal_eq_transactions hr hb hd
    exact ⟨m, by rw [step_of_rejected hr hb hf hd, hm]⟩

/-- A request that is no form, left on the port of an idle block. -/
theorem step_of_idle_request_eq_transaction (hr : s.rst = false) (hb : s.busy = false) (hq : s.breq = some r)
    (hf : ∀ j, decodeRequest r ≠ .ok j) : step s = .next (transaction s) := by
  rw [transaction_of_request hr hb hq]
  cases hd : decodeRequest r with
  | ok j => exact absurd hd (hf j)
  | error e => simp [step, hr, hb, hq, hd]

/-- On an idle block the meaning of a command is that of the running command, once its word is accepted. -/
theorem exec_of_accept (hb : s.busy = false) (hd : decodeCommand w = .ok i) : exec i s = exec i (s.accept w) := by
  obtain ⟨hc, -⟩ := decodeCommand_ok hd
  rw [exec_command hc, exec_command hc, runCommand_of_idle hb, runCommand_of_running rfl
    (commandWord_of_decodeCommand hd).symm, commandWord_of_decodeCommand hd]

/-- The acceptance is the first transaction of the step. -/
theorem step_of_word_eq_transactions (hr : s.rst = false) (hb : s.busy = false) (hq : s.breq = none)
    (hc : s.cmdIn = w :: ws) : ∃ m, step s = .next (transactions (m + 1) s) := by
  have haccept := transaction_of_word hr hb hq hc
  suffices h : ∃ m, step s = .next (transactions (m + 1) ({ s with cmdIn := ws }.accept w)) by
    obtain ⟨m, hm⟩ := h
    exact ⟨m + 1, by rw [hm, transactions, transactions, transactions, haccept]⟩
  cases hd : decodeCommand w with
  | ok i =>
    rw [step_of_presented hr hb hq hc hd, exec_of_accept (s := { s with cmdIn := ws }) hb hd]
    exact exec_running_eq_transactions hr rfl hd
  | error e =>
    obtain ⟨m, hm⟩ := runIllegal_eq_transactions (s := { s with cmdIn := ws }.accept w) hr rfl hd
    exact ⟨m, by rw [step_of_presented_illegal hr hb hq hc hd, ← hm]; rfl⟩

/-- Settles O18: the arms of `step` one by one; in each the step's first transaction is `transaction`'s. -/
theorem stepIsTransactions : Obligations.StepIsTransactions := by
  intro s
  have one (h : step s = .next (transaction s)) : ∃ n, step s = .next (transactions (n + 1) s) := ⟨0, h⟩
  cases hr : s.rst with
  | true => exact one (by rw [transaction_of_reset hr, step_of_reset hr])
  | false =>
    by_cases hf : ∃ r i, s.breq = some r ∧ decodeRequest r = .ok i
    · obtain ⟨r, i, hq, hd⟩ := hf
      exact one (step_of_form_eq_transaction hr hq hd)
    · push Not at hf
      cases hb : s.busy with
      | true => exact step_of_busy_eq_transactions hr hb hf
      | false =>
        cases hq : s.breq with
        | some r => exact one (step_of_idle_request_eq_transaction hr hb hq fun j => hf r j hq)
        | none =>
          cases hc : s.cmdIn with
          | nil => exact one (by rw [transaction_of_no_word hr hb hq hc, step_of_no_word hr hb hq hc])
          | cons w ws => exact step_of_word_eq_transactions hr hb hq hc

/-- Settles O15: it is an arm of `step`. -/
theorem stepRunsPresentedCommand : Obligations.StepRunsPresentedCommand :=
  fun _ _ _ _ hr hb hq hc hd => step_of_presented hr hb hq hc hd

/-- Settles O16: it is an arm of `step`. -/
theorem stepRunsEmittedForm : Obligations.StepRunsEmittedForm :=
  fun _ _ _ hr hq hd => step_of_form hr hq hd

end Sys2Proof.Machine
end

section
/-! A command run forward from its acceptance: one rule for each kind of micro-operation (R14, R27, R81). -/

namespace Sys2Proof.Machine

variable {i : Instr} {s t : State} {n : Nat}

/-- At most `n` transactions of the command `i` (R81). -/
def runOf (i : Instr) : Nat → State → State := run (commandBody i (microProgram i)) (answeredOf i)

/-- A command runs and has no request outstanding: its next micro-operation begins. -/
def State.BetweenOps (s : State) : Prop := s.busy = true ∧ s.breq = none ∧ s.treq = none

/-- An idle block that has accepted the word of `i` and admitted it. -/
def State.begun (i : Instr) (s : State) : State := { s with busy := true, ir := commandWord i, upc := 1 }

theorem State.Idle.begun_betweenOps (hs : s.Idle) : (s.begun i).BetweenOps := by
  obtain ⟨-, -, -, -, -, -, -, hbreq, htreq⟩ := hs
  exact ⟨rfl, hbreq, htreq⟩

/-- Acceptance clears only what is at rest in an idle block. -/
theorem State.Idle.accept_advance (hs : s.Idle) : (s.accept (commandWord i)).advance = s.begun i := by
  obtain ⟨-, -, hk, hnok, hstop, -, hcnt, hbreq, htreq⟩ := hs
  simp [State.accept, State.advance, State.begun, hk, hnok, hstop, hcnt, hbreq, htreq]

/-- The response clears what the run has left of a command: the block is as idle as before (R24, R27, R33). -/
theorem State.Idle.respond (hs : s.Idle) (u : Nat) (w : Word) (st : Status) (val : Half) :
    State.respond st val { s with busy := true, ir := w, upc := u } =
      { s with rsps := s.rsps ++ [responseWord st val] } := by
  obtain ⟨hbusy, hupc, hk, hnok, hstop, hir, hcnt, -, -⟩ := hs
  simp [State.respond, hbusy, hupc, hk, hnok, hstop, hir, hcnt]

/-! ### The micro-operations -/

/-- The micro-operation's own effect, where the command goes on. -/
theorem runOf_micro (hs : s.BetweenOps) (hm : commandBody i (microProgram i) s = some t) (ht : t.busy = true) :
    runOf i (n + 1) s = runOf i n t := by
  obtain ⟨-, hbreq, htreq⟩ := hs
  exact run_goes_on ((tick_body hbreq htreq).trans hm) ht

/-- The micro-operation that ends the command. -/
theorem runOf_last (hs : s.BetweenOps) (hm : commandBody i (microProgram i) s = some t) (ht : t.busy = false) :
    runOf i (n + 1) s = t := by
  obtain ⟨-, hbreq, htreq⟩ := hs
  exact run_ends ((tick_body hbreq htreq).trans hm) ht

/-- The answer to a request that a micro-operation has just made. -/
theorem tick_drive {body : State → Option State} {answered : BusReq → Byte → State → State} {r : BusReq} {a : Byte}
    {rest : List Byte} (hs : s.BetweenOps) (ha : s.answers = a :: rest) :
    tick body answered (s.drive r) =
      some (answered r a { s with busIn := rest, busLate := 0, trace := s.trace ++ [.bus r a] }) := by
  obtain ⟨-, hbreq, -⟩ := hs
  rw [tick_bus (s.drive_breq r), transfer_of_answer (s := s.drive r) ha, ← hbreq]
  rfl

/-- A bus request and its answer are two transactions. -/
theorem runOf_request {r : BusReq} {a : Byte} {rest : List Byte} (hs : s.BetweenOps)
    (hm : commandBody i (microProgram i) s = s.request r) (ha : s.answers = a :: rest)
    (ht : answeredOf i r a { s with busIn := rest, busLate := 0, trace := s.trace ++ [.bus r a] } = t)
    (hbusy : t.busy = true) : runOf i (n + 2) s = runOf i n t :=
  (runOf_micro hs hm hs.left).trans (run_goes_on (ht ▸ tick_drive hs ha) hbusy)

/-- A bus request whose answer ends the command. -/
theorem runOf_lastRequest {r : BusReq} {a : Byte} {rest : List Byte} (hs : s.BetweenOps)
    (hm : commandBody i (microProgram i) s = s.request r) (ha : s.answers = a :: rest)
    (ht : answeredOf i r a { s with busIn := rest, busLate := 0, trace := s.trace ++ [.bus r a] } = t)
    (hbusy : t.busy = false) : runOf i (n + 2) s = t :=
  (runOf_micro hs hm hs.left).trans (run_ends (ht ▸ tick_drive hs ha) hbusy)

/-- A wait and its end are two transactions. -/
theorem runOf_wait {us : Half} {d : Nat} (hs : s.BetweenOps) (hm : commandBody i (microProgram i) s = s.wait us)
    (hd : s.dones = d + 1) : runOf i (n + 2) s =
      runOf i n { s with timerIn := d, timerLate := 0, upc := s.upc + 1, trace := s.trace ++ [.wait us] } := by
  refine (runOf_micro hs hm hs.left).trans (run_goes_on ?_ hs.left)
  obtain ⟨-, hbreq, htreq⟩ := hs
  rw [tick_timer (s := { s with treq := some us }) hbreq rfl, elapse_of_done (s := { s with treq := some us }) hd,
    ← htreq]

/-- An idle block that admits a command accepts its word and runs it (R24, R224). -/
theorem exec_of_admitted (hs : s.Idle) (hc : i.isCommand = true) (hw : i.wellFormed = true)
    (ha : admitted i s.phase = true) :
    exec i s = .next (runOf i (3 * payloadLength i + 63) (s.begun i)) := by
  have hadmission : commandBody i (microProgram i) (s.accept (commandWord i)) = some (s.begun i) := by
    simp [commandBody, State.admission, hw, ha, hs.accept_advance]
  obtain ⟨hbusy, -⟩ := hs
  rw [exec_command hc, runCommand_of_idle hbusy]
  exact congrArg _ (runOf_micro ⟨rfl, rfl, rfl⟩ hadmission rfl)

end Sys2Proof.Machine
end

section
/-! INIT run to its end: the control requests, the bring-up transfers, and the tail both modes share (R120 to R130). -/

namespace Sys2Proof.Machine

variable {s b : State} {w : BitVec 8} {h : BitVec 3} {p : Font} {m : TransferMode} {n d : Nat}
  {as : List Byte} {tr : List Event}

/-- INIT past its two control requests: the adapter's mode is stored (R122, R123). -/
def State.initNegotiated (w : BitVec 8) (h : BitVec 3) (p : Font) (m tm : TransferMode) (as : List Byte)
    (tr : List Event) (s : State) : State :=
  { s with
    busy := true, ir := commandWord (.init w h p m), upc := 3, tm := tm, busIn := as, busLate := 0, trace := tr }

/-- The registers INIT has written when its step s5 begins (R120, R123 to R125). -/
def State.initConfigured (w : BitVec 8) (h : BitVec 3) (p : Font) (m tm : TransferMode) (s : State) : State :=
  { s with
    busy := true, ir := commandWord (.init w h p m), tm := tm, fs := deriveFs tm h p, lines := h
    lat := lineTableOf (widthClass w) }

/-- A command at the micro-operation `u`, with the answers `as` and `d` dones ahead of it and the trace `tr` behind. -/
def State.atStep (u : Nat) (as : List Byte) (d : Nat) (tr : List Event) (s : State) : State :=
  { s with upc := u, busIn := as, busLate := 0, timerIn := d, timerLate := 0, trace := tr }

theorem State.BetweenOps.atStep (hb : b.BetweenOps) (u : Nat) : (b.atStep u as d tr).BetweenOps := hb

theorem State.Idle.initConfigured_betweenOps (hs : s.Idle) (tm : TransferMode) :
    (s.initConfigured w h p m tm).BetweenOps := by
  obtain ⟨-, -, -, -, -, -, -, hbreq, htreq⟩ := hs
  exact ⟨rfl, hbreq, htreq⟩

theorem exec_init_of_uninit (hs : s.Idle) (hphase : s.phase = .uninit) (hl : 1 ≤ h.toNat ∧ h.toNat ≤ 4) :
    exec (.init w h p m) s = .next (runOf (.init w h p m) 63 (s.begun (.init w h p m))) :=
  exec_of_admitted hs rfl ((legalLines_iff h).mpr hl) (by simp [admitted, hphase])

/-! ### The steps s1 to s5 -/

theorem initAnswered_init_of_true {ok : Byte} (hok : ok ≠ 0) (s : State) : initAnswered .init ok s = s.advance :=
  if_pos (by simpa [boolAnswer] using hok)

/-- The steps s1 and s2: the bus comes up and the mode is stored (R122, R123). -/
theorem runOf_init_negotiates {ok mode : Byte} (hs : s.Idle) (hok : ok ≠ 0) (ha : s.answers = ok :: mode :: as) :
    runOf (.init w h p m) (n + 4) (s.begun (.init w h p m)) = runOf (.init w h p m) n
      (s.initNegotiated w h p m (modeAnswer mode) as
        (s.trace ++ [.bus .init ok, .bus (.negotiate m) mode])) := by
  have hb : (s.begun (.init w h p m)).BetweenOps := hs.begun_betweenOps
  calc
    _ = runOf (.init w h p m) (n + 2) { s.begun (.init w h p m) with
          upc := 2, busIn := mode :: as, busLate := 0, trace := s.trace ++ [.bus .init ok] } :=
        runOf_request (r := .init) hb rfl ha (initAnswered_init_of_true hok _) rfl
    _ = _ := runOf_request (r := .negotiate m) (a := mode) hb rfl rfl ?_ rfl
  simp [answeredOf, initAnswered, State.advance, State.begun, State.initNegotiated]

/-- The steps s3 to s5: the registers are written, then the power settles (R124, R125, R128). -/
theorem runOf_init_configures {tm : TransferMode} (hs : s.Idle) (hd : s.dones = d + 1) :
    runOf (.init w h p m) (n + 4) (s.initNegotiated w h p m tm as tr) =
      runOf (.init w h p m) n ((s.initConfigured w h p m tm).atStep 6 as d (tr ++ [.wait 50000])) := by
  have hb : (s.initNegotiated w h p m tm as tr).BetweenOps := hs.begun_betweenOps (i := .init w h p m)
  calc
    _ = runOf (.init w h p m) (n + 3)
          ((s.initNegotiated w h p m tm as tr).writeFs (deriveFs tm h p)).advance := runOf_micro hb rfl rfl
    _ = runOf (.init w h p m) (n + 2)
          (((s.initNegotiated w h p m tm as tr).writeFs (deriveFs tm h p)).advance.writeGeometry h
            (lineTableOf (widthClass w))).advance := runOf_micro hb rfl rfl
    _ = runOf (.init w h p m) n _ := runOf_wait (us := 50000) hb rfl hd
    _ = _ := ?_
  simp [State.writeFs, State.writeGeometry, State.advance, State.initNegotiated, State.initConfigured, State.atStep,
    deriveFs_live]

/-! ### The bring-up transfers -/

/-- The count of a bring-up transfer is not read (R130). -/
theorem initAnswered_burstRequest (a : Byte) (b s : State) : initAnswered (burstRequest b) a s = s.advance := by
  unfold burstRequest
  split <;> rfl

/-- A transfer of INIT whose count is not read (R130). -/
theorem runOf_init_transfer {u : Nat} {r : BusReq} {a : Byte} (hb : b.BetweenOps)
    (hm : commandBody (.init w h p m) (microInit w h p m) (b.atStep u (a :: as) d tr) =
      (b.atStep u (a :: as) d tr).request r)
    (hr : ∀ s, initAnswered r a s = s.advance) :
    runOf (.init w h p m) (n + 2) (b.atStep u (a :: as) d tr) =
      runOf (.init w h p m) n (b.atStep (u + 1) as d (tr ++ [.bus r a])) :=
  runOf_request (hb.atStep u) hm rfl (hr _) hb.left

/-- A micro-operation of INIT that writes a register and makes no request. -/
theorem runOf_init_write {u : Nat} {b' : State} (hb : b.BetweenOps)
    (hm : commandBody (.init w h p m) (microInit w h p m) (b.atStep u as d tr) = some (b'.atStep (u + 1) as d tr))
    (hb' : b'.BetweenOps) :
    runOf (.init w h p m) (n + 1) (b.atStep u as d tr) = runOf (.init w h p m) n (b'.atStep (u + 1) as d tr) :=
  runOf_micro (hb.atStep u) hm hb'.left

theorem runOf_init_wait {u : Nat} {us : Half} (hb : b.BetweenOps)
    (hm : commandBody (.init w h p m) (microInit w h p m) (b.atStep u as (d + 1) tr) =
      (b.atStep u as (d + 1) tr).wait us) :
    runOf (.init w h p m) (n + 2) (b.atStep u as (d + 1) tr) =
      runOf (.init w h p m) n (b.atStep (u + 1) as d (tr ++ [.wait us])) :=
  runOf_wait (hb.atStep u) hm rfl

/-- The trace of three bring-up transfers with the counts answered. -/
def burstTrace (r : BusReq) (n1 n2 n3 : Byte) : List Event :=
  [.bus r n1, .wait 4500, .bus r n2, .wait 4500, .bus r n3, .wait 150]

/-- The steps s6 to s11: three transfers, each with its wait (R126 to R128). -/
theorem runOf_init_bursts {n1 n2 n3 : Byte} (hb : b.BetweenOps) :
    runOf (.init w h p m) (n + 12) (b.atStep 6 (n1 :: n2 :: n3 :: as) (d + 3) tr) =
      runOf (.init w h p m) n (b.atStep 12 as d (tr ++ burstTrace (burstRequest b) n1 n2 n3)) := by
  have hcount (a : Byte) (s : State) := initAnswered_burstRequest a b s
  rw [runOf_init_transfer hb rfl (hcount n1), runOf_init_wait hb rfl, runOf_init_transfer hb rfl (hcount n2),
    runOf_init_wait hb rfl, runOf_init_transfer hb rfl (hcount n3), runOf_init_wait hb rfl]
  simp [burstTrace, Config.tBurst0Us, Config.tBurst1Us, Config.tBurst2Us]

/-- The step s12 in 4-bit mode (R126). -/
theorem runOf_init_modefix {n4 : Byte} (hb : b.BetweenOps) (hm : b.tm = .fourBit) :
    runOf (.init w h p m) (n + 2) (b.atStep 12 (n4 :: as) d tr) =
      runOf (.init w h p m) n (b.atStep 13 as d (tr ++ [.bus (.nibble 0x2) n4])) :=
  runOf_init_transfer hb (by simp [commandBody, microInit, State.atStep, hm, Config.nibbleModefix]) (fun _ => rfl)

/-- There is no step s12 in 8-bit mode (R127). -/
theorem runOf_init_no_modefix (hb : b.BetweenOps) (hm : b.tm = .eightBit) :
    runOf (.init w h p m) (n + 1) (b.atStep 12 as d tr) = runOf (.init w h p m) n (b.atStep 13 as d tr) :=
  runOf_init_write hb (by simp [commandBody, microInit, State.atStep, State.advance, hm]) hb

/-- The steps s13 to s20 (R129). -/
theorem runOf_init_tail {c1 c2 c3 c4 : Byte} (hb : b.BetweenOps) :
    runOf (.init w h p m) (n + 13) (b.atStep 13 (c1 :: c2 :: c3 :: c4 :: as) (d + 1) tr) =
      State.respond .ok 1 ({ b with phase := .ready, dc := 0x04, em := 0x02 }.atStep 20 as d
        (tr ++ initTail b.readFs c1 c2 c3 c4)) := by
  have hdc : (b.writeDc maskD).BetweenOps := hb
  have hem : ((b.writeDc maskD).writeEm maskId).BetweenOps := hb
  have hdisplay : displayControlOp (b.writeDc maskD).readDc = 0x0C := by rw [readDc_writeDc]; rfl
  have hentry : entryModeOp ((b.writeDc maskD).writeEm maskId).readEm = 0x06 := by rw [readEm_writeEm]; rfl
  rw [runOf_init_transfer (r := .instr (functionSetOp b.readFs)) hb rfl (fun _ => rfl), runOf_init_write hb rfl hdc,
    runOf_init_transfer (r := .instr (displayControlOp (b.writeDc maskD).readDc)) hdc rfl (fun _ => rfl),
    runOf_init_transfer (r := .instr 0x01) hdc rfl (fun _ => rfl), runOf_init_wait hdc rfl,
    runOf_init_write hdc rfl hem,
    runOf_init_transfer (r := .instr (entryModeOp ((b.writeDc maskD).writeEm maskId).readEm)) hem rfl (fun _ => rfl),
    runOf_last (hem.atStep _) rfl rfl, hdisplay, hentry]
  simp only [List.append_assoc]
  rfl

/-! ### The whole bring-up -/

theorem lineTableOf_widthClass (w : BitVec 8) :
    lineTableOf (widthClass w) = if w.toNat ≤ 16 then Config.lineBaseNarrow else Config.lineBaseWide := by
  rw [widthClass, show Config.narrowMaxWidth = 16 from rfl]
  split_ifs <;> rfl

/-- INIT's response leaves the block idle, in READY, with the registers it has written. -/
theorem respond_of_initConfigured {tm : TransferMode} (hs : s.Idle) (u : Nat) :
    State.respond .ok 1
      ({ s.initConfigured w h p m tm with phase := .ready, dc := 0x04, em := 0x02 }.atStep u as d tr) =
    { s with
      phase := .ready, tm := tm, fs := deriveFs tm h p, dc := 0x04, em := 0x02, lines := h
      lat := if w.toNat ≤ 16 then Config.lineBaseNarrow else Config.lineBaseWide
      busIn := as, busLate := 0, timerIn := d, timerLate := 0, trace := tr, rsps := s.rsps ++ [0x00010000] } := by
  rw [← lineTableOf_widthClass]
  exact State.Idle.respond (s := { s with
      phase := .ready, tm := tm, fs := deriveFs tm h p, dc := 0x04, em := 0x02, lines := h
      lat := lineTableOf (widthClass w)
      busIn := as, busLate := 0, timerIn := d, timerLate := 0, trace := tr }) hs u _ .ok 1

/-- R120 to R128 up to s11, in the mode the adapter answers. -/
theorem exec_init_bringsUp {tm : TransferMode} {ok mode n1 n2 n3 : Byte} (hs : s.Idle) (hphase : s.phase = .uninit)
    (hl : 1 ≤ h.toNat ∧ h.toNat ≤ 4) (hok : ok ≠ 0) (hmode : modeAnswer mode = tm)
    (ha : s.answers = ok :: mode :: n1 :: n2 :: n3 :: as) (hd : s.dones = d + 4) :
    exec (.init w h p m) s = .next (runOf (.init w h p m) 43 ((s.initConfigured w h p m tm).atStep 12 as d
      (s.trace ++ [.bus .init ok, .bus (.negotiate m) mode] ++ [.wait 50000] ++
        burstTrace (burstRequest (s.initConfigured w h p m tm)) n1 n2 n3))) := by
  rw [exec_init_of_uninit hs hphase hl, runOf_init_negotiates hs hok ha, hmode, runOf_init_configures hs hd,
    runOf_init_bursts (hs.initConfigured_betweenOps tm)]

theorem readFs_initConfigured (tm : TransferMode) : (s.initConfigured w h p m tm).readFs = deriveFs tm h p :=
  deriveFs_live tm h p

theorem burstRequest_of_eightBit :
    burstRequest (s.initConfigured w h p m .eightBit) = .instr (0x20 ||| deriveFs .eightBit h p) := by
  rw [← readFs_initConfigured (s := s) (w := w) (m := m)]
  rfl

/-- Settles O29: the control requests, the bring-up by nibbles, the mode-fix, then the tail. -/
theorem initRunsFourBitSequence : Obligations.InitRunsFourBitSequence := by
  intro s w h p m ok mode n1 n2 n3 n4 c1 c2 c3 c4 rest d hs hphase hmin hmax hok hmode ha hd
  simp only [List.cons_append, List.nil_append] at ha
  have hm : modeAnswer mode = .fourBit := by rw [modeAnswer, hmode]; rfl
  have hb : (s.initConfigured w h p m .fourBit).BetweenOps := hs.initConfigured_betweenOps _
  rw [exec_init_bringsUp hs hphase ⟨hmin, hmax⟩ hok hm ha hd, runOf_init_modefix hb rfl, runOf_init_tail hb,
    respond_of_initConfigured hs, readFs_initConfigured]
  simp only [List.append_assoc]
  rfl

/-- Settles O30: as O29, with full function sets for the nibbles and no mode-fix. -/
theorem initRunsEightBitSequence : Obligations.InitRunsEightBitSequence := by
  intro s w h p m ok mode n1 n2 n3 c1 c2 c3 c4 rest d hs hphase hmin hmax hok hmode ha hd
  simp only [List.cons_append, List.nil_append] at ha
  have hm : modeAnswer mode = .eightBit := by rw [modeAnswer, hmode]; rfl
  have hb : (s.initConfigured w h p m .eightBit).BetweenOps := hs.initConfigured_betweenOps _
  rw [exec_init_bringsUp hs hphase ⟨hmin, hmax⟩ hok hm ha hd, runOf_init_no_modefix hb rfl, runOf_init_tail hb,
    respond_of_initConfigured hs, readFs_initConfigured, burstRequest_of_eightBit]
  simp only [List.append_assoc]
  rfl

/-- Settles O28: the false answer to the first request is the command's last transaction. -/
theorem initFailsWithoutBus : Obligations.InitFailsWithoutBus := by
  intro s w h p m rest hs hphase hmin hmax ha
  rw [exec_init_of_uninit hs hphase ⟨hmin, hmax⟩, runOf_lastRequest (r := .init) hs.begun_betweenOps rfl ha rfl rfl]
  exact congrArg _ (State.Idle.respond (s := { s with
      phase := .failed, busIn := rest, busLate := 0, trace := s.trace ++ [.bus .init 0] }) hs 1 _ .errInitFailed 0)

/-- Settles O32: DEINIT's one micro-operation responds. -/
theorem deinitReleases : Obligations.DeinitReleases := by
  intro s hs hphase
  rw [exec_of_admitted hs rfl rfl (by simp [admitted, hphase]), runOf_last hs.begun_betweenOps rfl rfl]
  exact congrArg _ (State.Idle.respond (s := { s with phase := .released }) hs 1 _ .ok 0)

/-! ### The function set -/

theorem deriveFs_font_iff (tm : TransferMode) (h : BitVec 3) (p : Font) :
    (deriveFs tm h p).getLsbD 2 = true ↔ p.bit = true ∧ h.toNat = 1 := by
  revert h
  cases tm <;> cases p <;> decide

/-- Settles O31: the bits INIT derives, and the hardwired ones. -/
theorem functionSetDerivation : Obligations.FunctionSetDerivation := by
  intro tm h p
  obtain ⟨hdl, hn, -⟩ := deriveFs_bits tm h p
  have hzero : deriveFs tm h p &&& 0xE3 = 0 :=
    deriveFs_live tm h p ▸ hardwiredZero_of_live (deriveFs tm h p) liveFs 0xE3 (by decide)
  exact ⟨hdl, hn, deriveFs_font_iff tm h p, hzero⟩

end Sys2Proof.Machine
end

section
/-! What INIT and DEINIT leave alone, from any state (R102, R131). -/

namespace Sys2Proof.Machine

variable {i : Instr} {s t u : State}

/-- A command without a payload is admitted or turned away in one transaction. -/
theorem admission_of_no_payload (hi : payloadLength i = 0) (h : s.admission i = some t) :
    t = s.advance ∨ ∃ st, t = s.raiseError st := by
  have hdrain {st : Status} (h : s.drain st (payloadLength i) = some t) : t = s.raiseError st := by
    obtain ⟨hk, -⟩ | ⟨-, ht⟩ := drain_cases h
    · omega
    · exact ht
  obtain ⟨-, -, ht⟩ | ⟨-, -, h⟩ | ⟨-, h⟩ := admission_cases h
  · exact .inl ht
  · exact .inr ⟨_, hdrain h⟩
  · exact .inr ⟨_, hdrain h⟩

/-! ### INIT -/

theorem cmdIn_of_commandTick (ht : tick (commandBody i (microProgram i)) (answeredOf i) s = some t) :
    t.cmdIn = s.cmdIn := by
  obtain ⟨u, hport, hop⟩ := microOp_of_commandTick ht
  obtain ⟨-, -, -, -, hcmd⟩ := hport.sameSequencer
  exact hop.cmdIn.trans hcmd

section
variable {w : BitVec 8} {h : BitVec 3} {p : Font} {m : TransferMode}

theorem microInit_plIn (hm : microInit w h p m s = some t) : t.plIn = s.plIn := by
  unfold microInit at hm
  split at hm
  case h_12 => split at hm <;> (cases hm; rfl)
  case h_21 => cases hm
  all_goals cases hm; rfl

theorem initAnswered_plIn (r : BusReq) (a : Byte) (s : State) : (initAnswered r a s).plIn = s.plIn := by
  cases r with
  | init =>
    simp only [initAnswered]
    split <;> rfl
  | _ => rfl

/-- No transaction of INIT takes a payload byte. -/
theorem plIn_of_initTick
    (ht : tick (commandBody (.init w h p m) (microProgram (.init w h p m))) (answeredOf (.init w h p m)) s = some t) :
    t.plIn = s.plIn := by
  obtain ⟨r, -, ht⟩ | ⟨-, us, -, ht⟩ | ⟨-, -, ht⟩ := tick_cases ht
  · obtain ⟨a, rest, -, rfl⟩ := transfer_cases ht
    exact initAnswered_plIn r a _
  · obtain ⟨n, -, rfl⟩ := elapse_cases ht
    rfl
  · unfold commandBody at ht
    split at ht
    · obtain rfl | ⟨st, rfl⟩ := admission_of_no_payload rfl ht <;> rfl
    · exact microInit_plIn ht

end

/-! ### DEINIT -/

/-- What DEINIT leaves alone: every register of R22 but `PHASE`, which may become RELEASED, and the inputs. -/
def State.SameButReleased (s t : State) : Prop :=
  s.SameRegisters { t with phase := s.phase } ∧ (t.phase = s.phase ∨ t.phase = .released) ∧
    t.cmdIn = s.cmdIn ∧ t.plIn = s.plIn

theorem State.SameButReleased.refl (s : State) : s.SameButReleased s :=
  ⟨⟨rfl, rfl, rfl, rfl, rfl, rfl, rfl⟩, .inl rfl, rfl, rfl⟩

theorem State.SameButReleased.trans (hu : s.SameButReleased u) (ht : u.SameButReleased t) : s.SameButReleased t := by
  obtain ⟨⟨-, htm, hfs, hdc, hem, hlines, hlat⟩, hphase, hcmd, hpl⟩ := hu
  obtain ⟨⟨-, htm', hfs', hdc', hem', hlines', hlat'⟩, hphase', hcmd', hpl'⟩ := ht
  refine ⟨⟨rfl, htm'.trans htm, hfs'.trans hfs, hdc'.trans hdc, hem'.trans hem, hlines'.trans hlines,
    hlat'.trans hlat⟩, ?_, hcmd'.trans hcmd, hpl'.trans hpl⟩
  exact hphase'.elim (fun h => h ▸ hphase) .inr

theorem sameButReleased_of_deinitTick
    (ht : tick (commandBody .deinit (microProgram .deinit)) (answeredOf .deinit) s = some t) :
    s.SameButReleased t := by
  obtain ⟨r, -, ht⟩ | ⟨-, us, -, ht⟩ | ⟨-, -, ht⟩ := tick_cases ht
  · obtain ⟨a, rest, -, rfl⟩ := transfer_cases ht
    exact .refl s
  · obtain ⟨n, -, rfl⟩ := elapse_cases ht
    exact .refl s
  · unfold commandBody at ht
    split at ht
    · obtain rfl | ⟨st, rfl⟩ := admission_of_no_payload rfl ht <;> exact .refl s
    · simp only [microProgram, microDeinit] at ht
      split at ht <;> cases ht
      exact ⟨⟨rfl, rfl, rfl, rfl, rfl, rfl, rfl⟩, .inr rfl, rfl, rfl⟩

/-- Settles O50: acceptance and every transaction keep the frame. -/
theorem initAndDeinitFrames : Obligations.InitAndDeinitFrames := by
  refine ⟨fun s t h => ?_, fun s t w l p m h => ?_⟩ <;> cases h
  · exact runCommand_keeps (i := .deinit) (P := s.SameButReleased) (fun u w hu => hu)
      (fun u v hu hv => hu.trans (sameButReleased_of_deinitTick hv)) (.refl s)
  · exact runCommand_keeps (i := .init w l p m) (P := fun u => u.cmdIn = s.cmdIn ∧ u.plIn = s.plIn) (fun u w hu => hu)
      (fun u v hu hv => ⟨(cmdIn_of_commandTick hv).trans hu.left, (plIn_of_initTick hv).trans hu.right⟩) ⟨rfl, rfl⟩

end Sys2Proof.Machine
end

section
/-! The single-instruction commands: one instruction byte, its count kept, the wait of CLEAR and HOME, and the response
that reports the count (R140 to R149). -/

namespace Sys2Proof.Machine

variable {i : Instr} {s : State} {c : Byte} {rest : List Byte} {n : Nat}

/-! ### Commands whose response reports a count -/

/-- READY admits the command, and the answer to its bus request is kept for the response. -/
def KeepsCount (i : Instr) : Prop :=
  i.isCommand = true ∧ i.wellFormed = true ∧ admitted i .ready = true ∧ answeredOf i = State.latchAnswer

theorem exec_of_readyIdle (hs : s.ReadyIdle) (hi : KeepsCount i) :
    exec i s = .next (runOf i (3 * payloadLength i + 63) (s.begun i)) := by
  obtain ⟨hidle, hphase⟩ := hs
  obtain ⟨hc, hw, ha, -⟩ := hi
  exact exec_of_admitted hidle hc hw (hphase ▸ ha)

/-- A command after the request `r` was answered `c`: the count is in hand and `UPC` has advanced. -/
def State.counted (r : BusReq) (c : Byte) (rest : List Byte) (s : State) : State :=
  { s with cnt := c, upc := s.upc + 1, busIn := rest, busLate := 0, trace := s.trace ++ [.bus r c] }

theorem State.BetweenOps.advance (hs : s.BetweenOps) : s.advance.BetweenOps := hs

theorem State.BetweenOps.counted {r : BusReq} (hs : s.BetweenOps) : (s.counted r c rest).BetweenOps := hs

/-- The request of such a command and its answer (R27). -/
theorem runOf_countedRequest {r : BusReq} (hs : s.BetweenOps) (hi : KeepsCount i)
    (hm : commandBody i (microProgram i) s = s.request r) (ha : s.answers = c :: rest) :
    runOf i (n + 2) s = runOf i n (s.counted r c rest) := by
  obtain ⟨-, -, -, hlatch⟩ := hi
  exact runOf_request hs hm ha (by rw [hlatch]; rfl) hs.left

/-- The command `i` runs at the micro-operation `u` with the count `c` in hand, on an otherwise idle block. -/
def State.holding (i : Instr) (u : Nat) (c : Byte) (s : State) : State :=
  { s with busy := true, ir := commandWord i, upc := u, cnt := c }

theorem State.Idle.holding_betweenOps {u : Nat} (hs : s.Idle) : (s.holding i u c).BetweenOps :=
  hs.begun_betweenOps (i := i)

/-- The response reports the count in hand, and clears it with the rest of the command. -/
theorem runOf_reportsCount {u : Nat} (hs : s.Idle)
    (hm : commandBody i (microProgram i) (s.holding i u c) = some ((s.holding i u c).respond .ok (countVal c))) :
    runOf i (n + 1) (s.holding i u c) = { s with rsps := s.rsps ++ [responseWord .ok (c.setWidth 16)] } :=
  (runOf_last hs.holding_betweenOps hm rfl).trans (hs.respond u (commandWord i) .ok (countVal c))

/-! ### CLEAR and HOME -/

/-- The steps CLEAR and HOME share, over the byte they emit (R140, R142). -/
def microEmitThenWait (op : Byte) (s : State) : Option State :=
  match s.upc with
  | 1 => s.request (.instr op)
  | 2 => s.wait Config.tClearHomeUs
  | 3 => some (s.respond .ok (countVal s.cnt))
  | _ => none

theorem microProgram_clear : microProgram .clear = microEmitThenWait 0x01 := rfl

theorem microProgram_home : microProgram .home = microEmitThenWait 0x02 := rfl

/-- The byte, the wait whatever the count, the response: nothing else changes. -/
theorem exec_of_emitThenWait {op : Byte} {d : Nat} (hs : s.ReadyIdle) (hi : KeepsCount i)
    (hm : microProgram i = microEmitThenWait op) (ha : s.answers = c :: rest) (hd : s.dones = d + 1) :
    exec i s = .next { s with
      busIn := rest, busLate := 0, timerIn := d, timerLate := 0,
      trace := s.trace ++ [.bus (.instr op) c, .wait 2000],
      rsps := s.rsps ++ [responseWord .ok (c.setWidth 16)] } := by
  have hb : (s.begun i).BetweenOps := hs.left.begun_betweenOps
  rw [exec_of_readyIdle hs hi, runOf_countedRequest (r := .instr op) hb hi (by rw [hm]; rfl) ha,
    runOf_wait (us := 2000) hb.counted (by rw [hm]; rfl) hd,
    List.append_cons s.trace (.bus (.instr op) c) [.wait 2000]]
  exact congrArg _ (runOf_reportsCount (u := 3) (s := { s with
    busIn := rest, busLate := 0, timerIn := d, timerLate := 0,
    trace := s.trace ++ [.bus (.instr op) c] ++ [.wait 2000] }) hs.left (by rw [hm]; rfl))

/-- Settles O33: CLEAR and HOME are one micro-program over two bytes. -/
theorem clearAndHomeEmitAndWait : Obligations.ClearAndHomeEmitAndWait :=
  fun _ _ _ _ hs ha hd =>
    ⟨exec_of_emitThenWait hs ⟨rfl, rfl, rfl, rfl⟩ microProgram_clear ha hd,
      exec_of_emitThenWait hs ⟨rfl, rfl, rfl, rfl⟩ microProgram_home ha hd⟩

/-! ### SETCUR and SHIFT -/

/-- The steps SETCUR and SHIFT share, over the byte they compute from the registers (R144, R148). -/
def microComputeThenEmit (op : State → Byte) (s : State) : Option State :=
  match s.upc with
  | 1 => some s.advance
  | 2 => s.request (.instr (op s))
  | 3 => some (s.respond .ok (countVal s.cnt))
  | _ => none

theorem microProgram_setcur (col line : BitVec 8) :
    microProgram (.setcur col line) = microComputeThenEmit fun s => setcurOp col line s.lines s.lat := rfl

theorem microProgram_shift (r : ShiftDir) (co : Bool) :
    microProgram (.shift r co) = microComputeThenEmit fun _ => shiftOp r co := rfl

/-- The byte computed from the registers as the command found them, the response: nothing else changes. -/
theorem exec_of_computeThenEmit {op : State → Byte} (hs : s.ReadyIdle) (hi : KeepsCount i)
    (hm : microProgram i = microComputeThenEmit op) (hop : op (s.begun i).advance = op s) (ha : s.answers = c :: rest) :
    exec i s = .next { s with
      busIn := rest, busLate := 0, trace := s.trace ++ [.bus (.instr (op s)) c],
      rsps := s.rsps ++ [responseWord .ok (c.setWidth 16)] } := by
  have hb : (s.begun i).BetweenOps := hs.left.begun_betweenOps
  rw [exec_of_readyIdle hs hi, runOf_micro (t := (s.begun i).advance) hb (by rw [hm]; rfl) rfl,
    runOf_countedRequest (r := .instr (op (s.begun i).advance)) hb.advance hi (by rw [hm]; rfl) ha, hop]
  exact congrArg _ (runOf_reportsCount (u := 3) (s := { s with
    busIn := rest, busLate := 0, trace := s.trace ++ [.bus (.instr (op s)) c] }) hs.left (by rw [hm]; rfl))

/-- R145: with `LINES` above 0 the subtraction does not wrap. -/
theorem clampLine_of_pos (line : BitVec 8) {lines : BitVec 3} (h : 1 ≤ lines.toNat) :
    clampLine line lines = min line.toNat (lines.toNat - 1) :=
  congrArg (min line.toNat) (BitVec.toNat_sub_of_le (x := lines) (y := 1) h)

/-- Settles O35: without a wrap the index is a minimum of naturals. -/
theorem lineClampStaysInTable : Obligations.LineClampStaysInTable := by
  intro line lines hpos hmax
  rw [clampLine_of_pos line hpos]
  omega

/-- Bit 7 set over the other seven bits. -/
theorem toNat_bit7_or (x : Byte) : (0x80 ||| x).toNat = 128 + x.toNat % 128 := by
  revert x
  decide

/-- Settles O36: the sum is taken modulo 256, and bit 7 covers its highest bit. -/
theorem cursorAddressIsModulo128 : Obligations.CursorAddressIsModulo128 := by
  intro col line lines lat
  rw [setcurOp, toNat_bit7_or, setcurSum, BitVec.toNat_add, BitVec.toNat_setWidth]
  omega

/-- Settles O34: the byte is computed from `LINES` and `LAT`, and `LINES - 1` does not wrap. -/
theorem setcurEmitsLineAddress : Obligations.SetcurEmitsLineAddress := by
  intro s col line c rest hs hlines ha
  obtain ⟨hpos, -⟩ := hlines
  rw [exec_of_computeThenEmit hs ⟨rfl, rfl, rfl, rfl⟩ (microProgram_setcur col line) rfl ha, setcurOp, setcurSum,
    clampLine_of_pos line hpos]

/-- Settles O37: SHIFT's byte, case by case of its operands. -/
theorem shiftEmitsScopeAndDirection : Obligations.ShiftEmitsScopeAndDirection := by
  intro s r co c rest hs ha
  rw [exec_of_computeThenEmit hs ⟨rfl, rfl, rfl, rfl⟩ (microProgram_shift r co) rfl ha]
  cases r <;> cases co <;> rfl

end Sys2Proof.Machine
end

section
/-! The register commands: one control register read, modified and written, its whole image emitted, and the response that
reports the count (R160 to R173). `EM` and `DC` are two cases of one argument. -/

namespace Sys2Proof.Machine

variable {i j : Instr} {s t : State} {m n c c1 c2 keep : Byte} {b e : Bool} {rest : List Byte}

/-! ### Masks -/

theorem getLsbD_and_of_disjoint (h : m &&& n = 0) (k : Nat) : (m.getLsbD k && n.getLsbD k) = false := by
  rw [← BitVec.getLsbD_and, h]
  exact BitVec.getLsbD_zero

/-- Writes through disjoint masks commute (R173). -/
theorem rmw_comm (h : m &&& n = 0) (x : Byte) (b e : Bool) : rmw (rmw x m b) n e = rmw (rmw x n e) m b := by
  refine BitVec.eq_of_getLsbD_eq fun k _ => ?_
  have hbit := getLsbD_and_of_disjoint h k
  simp only [getLsbD_rmw]
  cases hm : m.getLsbD k <;> simp_all

/-- A write through a mask keeps the live bits outside it (R172). -/
theorem rmw_keeps {live : Byte} (hk : keep &&& live = keep) (hm : keep &&& m = 0) (x : Byte) (b : Bool) :
    rmw (x &&& live) m b &&& live &&& keep = x &&& keep := by
  refine BitVec.eq_of_getLsbD_eq fun k _ => ?_
  have hlive : (keep.getLsbD k && live.getLsbD k) = keep.getLsbD k := by rw [← BitVec.getLsbD_and, hk]
  have hbit := getLsbD_and_of_disjoint hm k
  simp only [BitVec.getLsbD_and, getLsbD_rmw]
  cases hkeep : keep.getLsbD k <;> simp_all

/-! ### The two registers and their commands -/

/-- The register X of R160. -/
inductive ControlReg where
  | em
  | dc

namespace ControlReg

/-- The stored byte. -/
def get : ControlReg → State → Byte
  | .em, s => s.em
  | .dc, s => s.dc

/-- The state with another stored byte. -/
def set : ControlReg → Byte → State → State
  | .em, v, s => { s with em := v }
  | .dc, v, s => { s with dc := v }

/-- The bits that are not hardwired 0 (R28, R29). -/
def live : ControlReg → Byte
  | .em => liveEm
  | .dc => liveDc

/-- BASE of R160. -/
def base : ControlReg → Byte
  | .em => 0x04
  | .dc => 0x08

/-- The read-modify-write of the register (R13, R160), as the value it gives. -/
def mutated (x : ControlReg) (m : Byte) (b : Bool) (s : State) : Byte := rmw (x.get s &&& x.live) m b

@[simp] theorem get_set (x : ControlReg) (v : Byte) (s : State) : x.get (x.set v s) = v := by
  cases x <;> rfl

@[simp] theorem get_set_of_ne {x y : ControlReg} (h : y ≠ x) (v : Byte) (s : State) : y.get (x.set v s) = y.get s := by
  cases x <;> cases y
  case em.em | dc.dc => exact absurd rfl h
  all_goals rfl

@[simp] theorem trace_set (x : ControlReg) (v : Byte) (s : State) : (x.set v s).trace = s.trace := by
  cases x <;> rfl

theorem answers_set (x : ControlReg) (v : Byte) (s : State) : (x.set v s).answers = s.answers := by
  cases x <;> rfl

theorem readyIdle_set (x : ControlReg) (v : Byte) (hs : s.ReadyIdle) : (x.set v s).ReadyIdle := by
  cases x <;> exact hs

end ControlReg

variable {x y : ControlReg}

/-- The five register commands, each with its register, its mask and its operand bit (R162 to R170). -/
inductive RegisterCommand : ControlReg → Instr → Byte → Bool → Prop
  | textdir (d : TextDir) : RegisterCommand .em (.textdir d) 0x02 d.bit
  | autoscroll (b : Bool) : RegisterCommand .em (.autoscroll b) 0x01 b
  | display (b : Bool) : RegisterCommand .dc (.display b) 0x04 b
  | cursor (b : Bool) : RegisterCommand .dc (.cursor b) 0x02 b
  | blink (b : Bool) : RegisterCommand .dc (.blink b) 0x01 b

theorem registerCommand_of_entryMode (h : entryModeCommand i = some (m, b)) : RegisterCommand .em i m b := by
  cases i with
  | textdir d => cases h; exact .textdir d
  | autoscroll => cases h; exact .autoscroll b
  | _ => cases h

theorem registerCommand_of_displayControl (h : displayControlCommand i = some (m, b)) : RegisterCommand .dc i m b := by
  cases i with
  | display => cases h; exact .display b
  | cursor => cases h; exact .cursor b
  | blink => cases h; exact .blink b
  | _ => cases h

theorem RegisterCommand.keepsCount (hi : RegisterCommand x i m b) : KeepsCount i := by
  cases hi <;> exact ⟨rfl, rfl, rfl, rfl⟩

theorem RegisterCommand.mask_live (hi : RegisterCommand x i m b) : m &&& x.live = m := by
  cases hi <;> rfl

theorem RegisterCommand.mask_mem (hi : RegisterCommand x i m b) : m ∈ [(0x04 : Byte), 0x02, 0x01] := by
  cases hi <;> decide

/-- Different masks name different bits. -/
theorem RegisterCommand.masks_disjoint (hi : RegisterCommand x i m b) (hj : RegisterCommand y j n e) (hne : m ≠ n) :
    m &&& n = 0 := by
  have hmasks : ∀ m ∈ [(0x04 : Byte), 0x02, 0x01], ∀ n ∈ [(0x04 : Byte), 0x02, 0x01], m ≠ n → m &&& n = 0 := by
    decide
  exact hmasks m hi.mask_mem n hj.mask_mem hne

theorem RegisterCommand.mutated_live (hi : RegisterCommand x i m b) (s : State) :
    x.mutated m b s &&& x.live = x.mutated m b s :=
  rmw_within hi.mask_live (x.get s) b

/-- The steps of R160. -/
def microMutateThenEmit (x : ControlReg) (m : Byte) (b : Bool) (s : State) : Option State :=
  match s.upc with
  | 1 => some (x.set (x.mutated m b s &&& x.live) s).advance
  | 2 => s.request (.instr (x.base ||| (x.get s &&& x.live)))
  | 3 => some (s.respond .ok (countVal s.cnt))
  | _ => none

theorem RegisterCommand.microProgram_eq (hi : RegisterCommand x i m b) : microProgram i = microMutateThenEmit x m b := by
  cases hi <;> rfl

/-! ### One register command on an idle block -/

/-- An idle block after a command that emitted `op`, was answered `c` and reported it. -/
def State.completed (op c : Byte) (rest : List Byte) (s : State) : State :=
  { s with
    busIn := rest, busLate := 0, trace := s.trace ++ [.bus (.instr op) c]
    rsps := s.rsps ++ [responseWord .ok (c.setWidth 16)] }

@[simp] theorem State.completed_trace (op c : Byte) (rest : List Byte) (s : State) :
    (s.completed op c rest).trace = s.trace ++ [.bus (.instr op) c] := rfl

@[simp] theorem ControlReg.get_completed (x : ControlReg) (op c : Byte) (rest : List Byte) (s : State) :
    x.get (s.completed op c rest) = x.get s := by
  cases x <;> rfl

theorem State.ReadyIdle.completed {op : Byte} (hs : s.ReadyIdle) : (s.completed op c rest).ReadyIdle := hs

theorem RegisterCommand.writes (hi : RegisterCommand x i m b) (s : State) :
    commandBody i (microProgram i) (s.begun i) = some ((x.set (x.mutated m b s) s).begun i).advance := by
  rw [hi.microProgram_eq, ← hi.mutated_live]
  cases x <;> rfl

theorem RegisterCommand.emits {v : Byte} (hi : RegisterCommand x i m b) (hv : v &&& x.live = v) (s : State) :
    commandBody i (microProgram i) ((x.set v s).begun i).advance =
      ((x.set v s).begun i).advance.request (.instr (x.base ||| v)) := by
  have himage : commandBody i (microProgram i) ((x.set v s).begun i).advance =
      ((x.set v s).begun i).advance.request (.instr (x.base ||| (v &&& x.live))) := by
    rw [hi.microProgram_eq]
    cases x <;> rfl
  rwa [hv] at himage

/-- R160: the bit is written and the whole register emitted, whatever the count (R161). -/
theorem exec_of_registerCommand (hi : RegisterCommand x i m b) (hs : s.ReadyIdle) (ha : s.answers = c :: rest) :
    exec i s = .next ((x.set (x.mutated m b s) s).completed (x.base ||| x.mutated m b s) c rest) := by
  obtain ⟨hidle, -⟩ : (x.set (x.mutated m b s) s).ReadyIdle := x.readyIdle_set _ hs
  rw [exec_of_readyIdle hs hi.keepsCount, runOf_micro hs.left.begun_betweenOps (hi.writes s) rfl,
    runOf_countedRequest hidle.begun_betweenOps.advance hi.keepsCount (hi.emits (hi.mutated_live s) s)
      ((x.answers_set _ s).trans ha)]
  exact congrArg _ (runOf_reportsCount (u := 3) (s := { x.set (x.mutated m b s) s with
    busIn := rest, busLate := 0, trace := (x.set (x.mutated m b s) s).trace ++ [_] }) hidle
    (by rw [hi.microProgram_eq]; rfl))

/-! ### What a register command leaves alone -/

/-- The `keep` bits of the register, and every other persistent register, are the same in both states. -/
def State.SameBeside (x : ControlReg) (keep : Byte) (s t : State) : Prop :=
  x.get t &&& keep = x.get s &&& keep ∧ s.SameRegisters (x.set (x.get s) t)

theorem State.SameBeside.of_sameRegisters {u : State} (hu : s.SameBeside x keep u) (h : u.SameRegisters t) :
    s.SameBeside x keep t := by
  obtain ⟨hbits, hsame⟩ := hu
  obtain ⟨h1, h2, h3, h4, h5, h6, h7⟩ := h
  cases x with
  | em => exact ⟨(congrArg (· &&& keep) h5).trans hbits, hsame.trans ⟨h1, h2, h3, h4, rfl, h6, h7⟩⟩
  | dc => exact ⟨(congrArg (· &&& keep) h4).trans hbits, hsame.trans ⟨h1, h2, h3, rfl, h5, h6, h7⟩⟩

/-- The write keeps the live bits outside the mask. -/
theorem State.SameBeside.mutate {u : State} (hu : s.SameBeside x keep u) (hk : keep &&& x.live = keep)
    (hm : keep &&& m = 0) (b : Bool) : s.SameBeside x keep (x.set (x.mutated m b u &&& x.live) u) := by
  obtain ⟨hbits, hsame⟩ := hu
  have hwrite : x.mutated m b u &&& x.live &&& keep = x.get u &&& keep := rmw_keeps hk hm (x.get u) b
  exact ⟨by rw [x.get_set, hwrite, hbits], by cases x <;> exact hsame⟩

/-- From any state, one transaction of a register command (R172). -/
theorem sameBeside_of_registerTick {u : State} (hi : RegisterCommand x i m b) (hk : keep &&& x.live = keep)
    (hm : keep &&& m = 0) (hu : s.SameBeside x keep u)
    (ht : tick (commandBody i (microProgram i)) (answeredOf i) u = some t) : s.SameBeside x keep t := by
  obtain ⟨-, -, -, hlatch⟩ := hi.keepsCount
  obtain ⟨r, -, ht⟩ | ⟨-, us, -, ht⟩ | ⟨-, -, ht⟩ := tick_cases ht
  · obtain ⟨a, rest, -, rfl⟩ := transfer_cases ht
    rw [hlatch]
    exact hu.of_sameRegisters ⟨rfl, rfl, rfl, rfl, rfl, rfl, rfl⟩
  · obtain ⟨n, -, rfl⟩ := elapse_cases ht
    exact hu.of_sameRegisters ⟨rfl, rfl, rfl, rfl, rfl, rfl, rfl⟩
  · unfold commandBody at ht
    split at ht
    · exact hu.of_sameRegisters ((microOp_of_admission (i := .clear) ht).sameRegisters rfl)
    · rw [hi.microProgram_eq, microMutateThenEmit] at ht
      split at ht <;> cases ht
      · exact (hu.mutate hk hm b).of_sameRegisters ⟨rfl, rfl, rfl, rfl, rfl, rfl, rfl⟩
      · exact hu.of_sameRegisters ⟨rfl, rfl, rfl, rfl, rfl, rfl, rfl⟩
      · exact hu.of_sameRegisters ⟨rfl, rfl, rfl, rfl, rfl, rfl, rfl⟩

theorem sameBeside_of_registerCommand (hi : RegisterCommand x i m b) (hk : keep &&& x.live = keep)
    (hm : keep &&& m = 0) (h : exec i s = .next t) : s.SameBeside x keep t := by
  obtain ⟨hc, -⟩ := hi.keepsCount
  rw [exec_command hc] at h
  cases h
  refine runCommand_keeps (P := s.SameBeside x keep)
    (fun u w hu => hu.of_sameRegisters ⟨rfl, rfl, rfl, rfl, rfl, rfl, rfl⟩)
    (fun u v hu hv => sameBeside_of_registerTick hi hk hm hu hv) ?_
  cases x <;> exact ⟨rfl, rfl, rfl, rfl, rfl, rfl, rfl, rfl⟩

/-! ### Two register commands, one after the other -/

/-- On one register: the second command reads what the first has written. -/
theorem exec_two_on_one_register (hs : s.ReadyIdle) (ha : s.answers = c1 :: c2 :: rest)
    (hi : RegisterCommand x i m b) (hj : RegisterCommand x j n e) :
    ∃ u t, exec i s = .next u ∧ exec j u = .next t ∧
      x.get t = rmw (rmw (x.get s &&& x.live) m b) n e ∧ (∀ y, y ≠ x → y.get t = y.get s) ∧
      t.trace = s.trace ++
        [.bus (.instr (x.base ||| rmw (x.get s &&& x.live) m b)) c1, .bus (.instr (x.base ||| x.get t)) c2] := by
  have hnext := x.readyIdle_set (x.mutated m b s) hs
  refine ⟨_, _, exec_of_registerCommand hi hs ha, exec_of_registerCommand hj hnext.completed rfl, ?_, ?_, ?_⟩
  · rw [x.get_completed, x.get_set, ControlReg.mutated, x.get_completed, x.get_set, hi.mutated_live,
      ControlReg.mutated]
  · intro y hy
    simp [hy]
  · simp [ControlReg.mutated]

/-- On the two registers: neither command reads what the other writes. -/
theorem exec_two_on_two_registers (hs : s.ReadyIdle) (ha : s.answers = c1 :: c2 :: rest)
    (hi : RegisterCommand x i m b) (hj : RegisterCommand y j n e) (hne : x ≠ y) :
    ∃ u t, exec i s = .next u ∧ exec j u = .next t ∧
      x.get t = rmw (x.get s &&& x.live) m b ∧ y.get t = rmw (y.get s &&& y.live) n e ∧
      t.trace = s.trace ++ [.bus (.instr (x.base ||| x.get t)) c1, .bus (.instr (y.base ||| y.get t)) c2] := by
  have hnext := x.readyIdle_set (x.mutated m b s) hs
  refine ⟨_, _, exec_of_registerCommand hi hs ha, exec_of_registerCommand hj hnext.completed rfl, ?_, ?_, ?_⟩ <;>
    simp [ControlReg.mutated, hne, hne.symm]

/-- R173 on one register: both orders end with the same value, and each emits its own images. -/
theorem registerCommands_commute_on_one (hs : s.ReadyIdle) (ha : s.answers = c1 :: c2 :: rest)
    (hi : RegisterCommand x i m b) (hj : RegisterCommand x j n e) (hne : m ≠ n) :
    ∃ u v t t', exec i s = .next u ∧ exec j u = .next t ∧ exec j s = .next v ∧ exec i v = .next t' ∧
      x.get t = rmw (rmw (x.get s &&& x.live) m b) n e ∧ x.get t' = x.get t ∧
      (∀ y, y ≠ x → y.get t = y.get s ∧ y.get t' = y.get s) ∧
      t.trace = s.trace ++
        [.bus (.instr (x.base ||| rmw (x.get s &&& x.live) m b)) c1, .bus (.instr (x.base ||| x.get t)) c2] ∧
      t'.trace = s.trace ++
        [.bus (.instr (x.base ||| rmw (x.get s &&& x.live) n e)) c1, .bus (.instr (x.base ||| x.get t)) c2] := by
  obtain ⟨u, t, hu, ht, hval, hother, htrace⟩ := exec_two_on_one_register hs ha hi hj
  obtain ⟨v, t', hv, ht', hval', hother', htrace'⟩ := exec_two_on_one_register hs ha hj hi
  have heq : x.get t' = x.get t := by rw [hval, hval', rmw_comm (hi.masks_disjoint hj hne)]
  exact ⟨u, v, t, t', hu, ht, hv, ht', hval, heq, fun y hy => ⟨hother y hy, hother' y hy⟩, htrace, heq ▸ htrace'⟩

/-! ### The obligations -/

/-- Settles O38: both are commands of `EM`. -/
theorem entryModeCommandsMutateAndEmit : Obligations.EntryModeCommandsMutateAndEmit :=
  fun _ _ _ hs ha =>
    ⟨fun d => exec_of_registerCommand (.textdir d) hs ha, fun b => exec_of_registerCommand (.autoscroll b) hs ha⟩

/-- Settles O39: all three are commands of `DC`. -/
theorem displayCommandsMutateAndEmit : Obligations.DisplayCommandsMutateAndEmit :=
  fun _ b _ _ hs ha =>
    ⟨exec_of_registerCommand (.display b) hs ha, exec_of_registerCommand (.cursor b) hs ha,
      exec_of_registerCommand (.blink b) hs ha⟩

/-- Settles O41: in each clause the bits named are live and outside the mask. -/
theorem registerCommandsIsolateBits : Obligations.RegisterCommandsIsolateBits :=
  fun _ _ =>
    ⟨fun d => sameBeside_of_registerCommand (.textdir d) rfl rfl,
      fun b => sameBeside_of_registerCommand (.autoscroll b) rfl rfl,
      fun b => sameBeside_of_registerCommand (.display b) rfl rfl,
      fun b => sameBeside_of_registerCommand (.cursor b) rfl rfl,
      fun b => sameBeside_of_registerCommand (.blink b) rfl rfl⟩

/-- Settles O42: one register or two, each order is two commands run to their ends; R173's example is one case. -/
theorem registerCommandsCommuteInValueOnly : Obligations.RegisterCommandsCommuteInValueOnly := by
  intro s c1 c2 rest hs ha
  refine ⟨fun i j m n b e hi hj hne => ?_, fun i j m n b e hi hj hne => ?_, fun i j m n b e hi hj => ?_, fun hdc => ?_⟩
  · obtain ⟨u, v, t, t', hu, ht, hv, ht', hval, heq, hother, htrace, htrace'⟩ := registerCommands_commute_on_one hs ha
      (registerCommand_of_entryMode hi) (registerCommand_of_entryMode hj) hne
    obtain ⟨hsame, hsame'⟩ := hother .dc nofun
    exact ⟨u, v, t, t', hu, ht, hv, ht', hval, heq, hsame, hsame', htrace, htrace'⟩
  · obtain ⟨u, v, t, t', hu, ht, hv, ht', hval, heq, hother, htrace, htrace'⟩ := registerCommands_commute_on_one hs ha
      (registerCommand_of_displayControl hi) (registerCommand_of_displayControl hj) hne
    obtain ⟨hsame, hsame'⟩ := hother .em nofun
    exact ⟨u, v, t, t', hu, ht, hv, ht', hval, heq, hsame, hsame', htrace, htrace'⟩
  · have hem := registerCommand_of_entryMode hi
    have hdc := registerCommand_of_displayControl hj
    obtain ⟨u, t, hu, ht, htem, htdc, htrace⟩ := exec_two_on_two_registers hs ha hem hdc nofun
    obtain ⟨v, t', hv, ht', htdc', htem', htrace'⟩ := exec_two_on_two_registers hs ha hdc hem nofun
    rw [htdc', htem', ← htdc, ← htem] at htrace'
    exact ⟨u, v, t, t', hu, ht, hv, ht', htem, htem'.trans htem.symm, htdc, htdc'.trans htdc.symm, htrace, htrace'⟩
  · obtain ⟨u, v, t, t', hu, ht, hv, ht', hval, heq, -, htrace, htrace'⟩ :=
      registerCommands_commute_on_one hs ha (.cursor true) (.blink true) (by decide)
    have hfinal : ControlReg.dc.get t = 0x07 := by
      rw [hval, ControlReg.get, hdc]
      rfl
    rw [hfinal, ControlReg.get, hdc] at htrace htrace'
    exact ⟨u, v, t, t', hu, ht, hv, ht', hfinal, heq.trans hfinal, htrace, htrace'⟩

end Sys2Proof.Machine
end

section
/-! The data-streaming commands: payload bytes taken and sent one by one, and the response that reports how many of the
transfers succeeded (R181 to R190). -/

namespace Sys2Proof.Machine

variable {i : Instr} {s t : State} {slot : BitVec 3} {len : BitVec 16} {n m u k nok : Nat} {stop : Bool} {b c : Byte}
  {pl as rows counts more rest : List Byte}

/-! ### One data transfer -/

theorem take_of_byte {next : Byte → State → State} (hp : s.plIn = b :: pl) :
    s.take next = some (next b { s with plIn := pl }) := by
  simp [State.take, hp]

/-- The ports after the data byte `b` was taken, sent and answered `c`. -/
def State.byteSent (b c : Byte) (pl as : List Byte) (s : State) : State :=
  { s with plIn := pl, busIn := as, busLate := 0, trace := s.trace ++ [.bus (.data b) c] }

/-- A payload byte taken and sent, and its answer, are two transactions. -/
theorem runOf_sendsByte (hs : s.BetweenOps)
    (hm : commandBody i (microProgram i) s = some ({ s with plIn := pl }.drive (.data b))) (ha : s.answers = c :: as)
    (ht : answeredOf i (.data b) c (s.byteSent b c pl as) = t) (hbusy : t.busy = true) :
    runOf i (n + 2) s = runOf i n t :=
  (runOf_micro hs hm hs.left).trans (run_goes_on (ht ▸ tick_drive (s := { s with plIn := pl }) hs ha) hbusy)

/-! ### Counting -/

theorem successes_cons (c : Byte) (cs : List Byte) : successes (c :: cs) = successes [c] + successes cs :=
  List.countP_append (l₁ := [c])

theorem successes_of_failed (hc : (c == 0) = true) : successes [c] = 0 :=
  List.countP_eq_zero.mpr (by simpa [bne] using hc)

theorem successes_of_sent (hc : (c == 0) = false) : successes [c] = 1 :=
  List.countP_eq_length.mpr (by simpa [bne] using hc)

theorem countOk_ofNat (c : Byte) (nok : Nat) :
    countOk c (BitVec.ofNat 16 nok) = BitVec.ofNat 16 (nok + successes [c]) := by
  cases hc : c == 0 with
  | true =>
    rw [countOk, transferOk, bne, hc, successes_of_failed hc]
    rfl
  | false =>
    rw [countOk, transferOk, bne, hc, successes_of_sent hc, BitVec.ofNat_add]
    rfl

theorem bytesWritten_of_failed (hc : (c == 0) = true) : bytesWritten (m + 1) (c :: as) = 0 := by
  simp only [bytesWritten, List.take_succ_cons, List.findIdx_cons, hc, cond_true]

theorem bytesWritten_of_sent (hc : (c == 0) = false) : bytesWritten (m + 1) (c :: as) = bytesWritten m as + 1 := by
  simp only [bytesWritten, List.take_succ_cons, List.findIdx_cons, hc, cond_false]

theorem bytesSent_eq_min (m : Nat) (as : List Byte) : bytesSent m as = min m (bytesWritten m as + 1) := rfl

theorem bytesSent_of_failed (hc : (c == 0) = true) : bytesSent (m + 1) (c :: as) = 1 := by
  rw [bytesSent_eq_min, bytesWritten_of_failed hc]
  omega

theorem bytesSent_of_sent (hc : (c == 0) = false) : bytesSent (m + 1) (c :: as) = bytesSent m as + 1 := by
  rw [bytesSent_eq_min, bytesSent_eq_min, bytesWritten_of_sent hc]
  omega

/-- A payload of one byte or more has its first byte sent, so an answer is there. -/
theorem answers_of_bytesSent_le (h : bytesSent (m + 1) as ≤ as.length) : ∃ c cs, as = c :: cs := by
  cases as with
  | nil => simp [bytesSent] at h
  | cons c cs => exact ⟨c, cs, rfl⟩

/-! ### A command in its loop -/

/-- The command `i` runs at the micro-operation `u` with its loop registers, on an otherwise idle block (R33). -/
def State.streaming (i : Instr) (u k nok : Nat) (stop : Bool) (s : State) : State :=
  { s with
    busy := true, ir := commandWord i, upc := u, k := BitVec.ofNat 16 k, nok := BitVec.ofNat 16 nok, stop := stop }

theorem State.Idle.streaming_betweenOps (hs : s.Idle) : (s.streaming i u k nok stop).BetweenOps :=
  hs.begun_betweenOps (i := i)

theorem State.Idle.begun_eq_streaming (hs : s.Idle) : s.begun i = s.streaming i 1 0 0 false := by
  obtain ⟨-, -, hk, hnok, hstop, -⟩ := hs
  simp [State.begun, State.streaming, hk, hnok, hstop]

/-- The response reports `NOK`, and clears the loop registers with the rest of the command. -/
theorem runOf_reportsSuccesses (hs : s.Idle) (hm : commandBody i (microProgram i) (s.streaming i u k nok stop) =
      some ((s.streaming i u k nok stop).respond .ok (BitVec.ofNat 16 nok))) :
    runOf i (n + 1) (s.streaming i u k nok stop) =
      { s with rsps := s.rsps ++ [responseWord .ok (BitVec.ofNat 16 nok)] } :=
  (runOf_last hs.streaming_betweenOps hm rfl).trans (hs.respond u (commandWord i) .ok (BitVec.ofNat 16 nok))

/-! ### PATTERN -/

/-- PATTERN about to send row `k`: `UPC` numbers the rows apart (log entry 3). -/
def State.patterning (slot : BitVec 3) (k nok : Nat) (s : State) : State :=
  s.streaming (.pattern slot) (k + 2) k nok false

/-- The ports after the CGRAM select was answered `c`. -/
def State.selected (slot : BitVec 3) (c : Byte) (as : List Byte) (s : State) : State :=
  { s with busIn := as, busLate := 0, trace := s.trace ++ [.bus (.instr (cgramOp slot)) c] }

theorem patternSelected_streaming (c : Byte) (s : State) :
    patternSelected c (s.streaming (.pattern slot) 1 0 0 false) = s.patterning slot 0 (successes [c]) := by
  have hcount : countOk c 0 = BitVec.ofNat 16 (successes [c]) :=
    Nat.zero_add (successes [c]) ▸ countOk_ofNat c 0
  simp only [patternSelected, State.patterning, State.streaming, ← hcount]
  rfl

/-- An admitted PATTERN makes the CGRAM select (R181, s1). -/
theorem exec_pattern_selects (hs : s.ReadyIdle) (ha : s.answers = c :: as) :
    exec (.pattern slot) s =
      .next (runOf (.pattern slot) 85 ((s.selected slot c as).patterning slot 0 (successes [c]))) := by
  obtain ⟨hidle, hphase⟩ := hs
  rw [exec_of_admitted hidle rfl rfl (by simp [admitted, hphase]), hidle.begun_eq_streaming]
  exact congrArg _ (runOf_request (r := .instr (cgramOp slot)) hidle.streaming_betweenOps rfl ha
    (patternSelected_streaming c (s.selected slot c as)) rfl)

theorem patternRowSent_patterning (c : Byte) (s : State) :
    patternRowSent c (s.patterning slot k nok) = s.patterning slot (k + 1) (nok + successes [c]) := by
  simp [patternRowSent, State.advance, State.patterning, State.streaming, countOk_ofNat, BitVec.ofNat_add]

/-- One row, whatever its count (R182). -/
theorem runOf_pattern_sendsRow (hs : s.Idle) (hk : k < 8) (hp : s.plIn = b :: pl) (ha : s.answers = c :: as) :
    runOf (.pattern slot) (n + 2) (s.patterning slot k nok) = runOf (.pattern slot) n
      ((s.byteSent b c pl as).patterning slot (k + 1) (nok + successes [c])) := by
  refine runOf_sendsByte (b := b) hs.streaming_betweenOps ?_ ha (patternRowSent_patterning c (s.byteSent b c pl as)) rfl
  have hrow : (BitVec.ofNat 16 k).toNat < Config.cgRows := by
    rw [BitVec.toNat_ofNat, Nat.mod_eq_of_lt (by omega)]
    exact hk
  have hbody : commandBody (.pattern slot) (microProgram (.pattern slot)) (s.patterning slot k nok) =
      (s.patterning slot k nok).take fun b s' => s'.drive (.data b) := if_pos hrow
  rw [hbody]
  exact take_of_byte hp

/-- R181 from the row `k` on: the remaining rows in order, then the response. -/
theorem runOf_pattern_sendsRows (hs : s.Idle) (hk : k + rows.length = 8) (hcounts : counts.length = rows.length)
    (hp : s.plIn = rows ++ more) (ha : s.busIn = counts ++ rest) (hlate : s.busLate = 0)
    (hn : 2 * rows.length < n) :
    runOf (.pattern slot) n (s.patterning slot k nok) = { s with
      plIn := more, busIn := rest, trace := s.trace ++ dataEvents rows counts,
      rsps := s.rsps ++ [responseWord .ok (BitVec.ofNat 16 (nok + successes counts))] } := by
  induction rows generalizing s k nok n counts with
  | nil =>
    obtain rfl : counts = [] := List.length_eq_zero_iff.mp hcounts
    obtain rfl : k = 8 := hk
    obtain ⟨n, rfl⟩ := Nat.exists_eq_add_of_lt hn
    simp only [List.nil_append] at hp ha
    rw [State.patterning, runOf_reportsSuccesses hs rfl, ← hp, ← ha]
    simp [dataEvents, successes]
  | cons b rows ih =>
    obtain ⟨c, counts, rfl⟩ := List.exists_cons_of_length_eq_add_one hcounts
    simp only [List.length_cons] at hk hcounts hn
    obtain ⟨n, rfl⟩ : ∃ j, n = j + 2 := ⟨n - 2, by omega⟩
    have hanswers : s.answers = c :: (counts ++ rest) := by simp [State.answers, ha, hlate]
    rw [runOf_pattern_sendsRow (pl := rows ++ more) hs (by omega) hp hanswers,
      ih (s := s.byteSent b c (rows ++ more) (counts ++ rest)) hs (by omega) (by omega) rfl rfl rfl (by omega),
      successes_cons c counts, ← Nat.add_assoc]
    simp [State.byteSent, dataEvents, hlate]

/-- Settles O43: the select, then the rows. -/
theorem patternSendsEveryRow : Obligations.PatternSendsEveryRow := by
  intro s slot rows more c counts rest hs hrows hcounts hp ha
  rw [exec_pattern_selects (as := counts ++ rest) hs ha,
    runOf_pattern_sendsRows (s := s.selected slot c (counts ++ rest)) hs.left (by omega) (by omega) hp rfl rfl
      (by omega), successes_cons c counts]
  rfl

/-! ### WRITE -/

/-- WRITE with `k` bytes of its payload taken: in its loop while bytes are left, else about to respond (R188). -/
def State.writing (len : BitVec 16) (k nok : Nat) (stop : Bool) (s : State) : State :=
  s.streaming (.write len) (if k < len.toNat then 2 else 3) k nok stop

theorem toNat_index (hk : k ≤ len.toNat) : (BitVec.ofNat 16 k).toNat = k := by
  rw [BitVec.toNat_ofNat, Nat.mod_eq_of_lt (by omega)]

theorem writeNext_writing (hk : k < len.toNat) (s : State) :
    writeNext len (s.writing len k nok stop) = s.writing len (k + 1) nok stop := by
  simp [writeNext, State.writing, State.streaming, toNat_index hk.le, hk, BitVec.ofNat_add]

theorem writeSent_writing (hk : k < len.toNat) (c : Byte) (s : State) :
    writeSent len c (s.writing len k nok false) = s.writing len (k + 1) (nok + successes [c]) (c == 0) := by
  have hstop : stopAfter c false = (c == 0) := by rw [stopAfter, transferOk, bne, Bool.not_not, Bool.false_or]
  rw [← writeNext_writing hk, ← hstop]
  simp only [State.writing, State.streaming, ← countOk_ofNat]
  rfl

/-- An admitted WRITE enters its loop (R185, s1). -/
theorem exec_write_enters (hs : s.ReadyIdle) :
    exec (.write len) s =
      .next (runOf (.write len) (3 * len.toNat + 62) (s.streaming (.write len) 2 0 0 false)) := by
  obtain ⟨hidle, hphase⟩ := hs
  rw [exec_of_admitted hidle rfl rfl (by simp [admitted, hphase])]
  exact congrArg _ (runOf_micro hidle.begun_betweenOps rfl rfl)

/-- A byte of the loop is taken. -/
theorem write_takes (hk : k < len.toNat) (hp : s.plIn = b :: pl) :
    commandBody (.write len) (microProgram (.write len)) (s.writing len k nok stop) =
      some (writeByte len b ({ s with plIn := pl }.writing len k nok stop)) := by
  have hloop : (s.writing len k nok stop).k.toNat < len.toNat := (toNat_index hk.le).trans_lt hk
  have hupc : (s.writing len k nok stop).upc = 2 := if_pos hk
  have hbody : commandBody (.write len) (microProgram (.write len)) (s.writing len k nok stop) =
      (s.writing len k nok stop).take (writeByte len) := by
    simp [commandBody, microProgram, microWrite, hupc, hloop]
  rw [hbody]
  exact take_of_byte hp

/-- After the first failure a byte is taken and not sent (R189). -/
theorem runOf_write_discards (hs : s.Idle) (hk : k < len.toNat) (hp : s.plIn = b :: pl) :
    runOf (.write len) (n + 1) (s.writing len k nok true) =
      runOf (.write len) n ({ s with plIn := pl }.writing len (k + 1) nok true) := by
  have hnext : writeByte len b ({ s with plIn := pl }.writing len k nok true) =
      { s with plIn := pl }.writing len (k + 1) nok true := writeNext_writing hk { s with plIn := pl }
  exact runOf_micro hs.streaming_betweenOps ((write_takes hk hp).trans (congrArg some hnext)) rfl

/-- Before the first failure a byte is taken and sent, and a count of 0 stops the transfers (R187). -/
theorem runOf_write_sends (hs : s.Idle) (hk : k < len.toNat) (hp : s.plIn = b :: pl) (ha : s.answers = c :: as) :
    runOf (.write len) (n + 2) (s.writing len k nok false) = runOf (.write len) n
      ((s.byteSent b c pl as).writing len (k + 1) (nok + successes [c]) (c == 0)) :=
  runOf_sendsByte (b := b) (pl := pl) hs.streaming_betweenOps (write_takes hk hp) ha
    (writeSent_writing hk c (s.byteSent b c pl as)) rfl

theorem runOf_write_responds (hs : s.Idle) (hk : k = len.toNat) :
    runOf (.write len) (n + 1) (s.writing len k nok stop) =
      { s with rsps := s.rsps ++ [responseWord .ok (BitVec.ofNat 16 nok)] } := by
  refine runOf_reportsSuccesses hs ?_
  rw [if_neg (by omega)]
  rfl

/-- R189: with `m` bytes left after the first failure, all are taken and none is sent. -/
theorem runOf_write_drains (hs : s.Idle) (hk : m + k = len.toNat) (hp : m ≤ s.plIn.length) (hn : m < n) :
    runOf (.write len) n (s.writing len k nok true) = { s with
      plIn := s.plIn.drop m, rsps := s.rsps ++ [responseWord .ok (BitVec.ofNat 16 nok)] } := by
  induction m generalizing s k n with
  | zero =>
    obtain ⟨n, rfl⟩ := Nat.exists_eq_add_of_lt hn
    exact runOf_write_responds hs (by omega)
  | succ m ih =>
    obtain ⟨b, pl, hb⟩ := List.exists_cons_of_length_pos (Nat.zero_lt_of_lt hp)
    obtain ⟨n, rfl⟩ : ∃ j, n = j + 1 := ⟨n - 1, by omega⟩
    have hleft : m ≤ pl.length := by simpa [hb] using hp
    rw [runOf_write_discards hs (by omega) hb, ih (s := { s with plIn := pl }) hs (by omega) hleft (by omega)]
    simp [hb]

/-- R185 with `m` bytes left, one at least, and none failed so far: bytes are sent until one fails or none is left. -/
theorem runOf_write_streams (hs : s.Idle) (hm : 0 < m) (hk : m + k = len.toNat) (hp : m ≤ s.plIn.length)
    (ha : bytesSent m s.answers ≤ s.answers.length) (hn : 2 * m < n) :
    runOf (.write len) n (s.writing len k nok false) = { s with
      plIn := s.plIn.drop m, busIn := s.answers.drop (bytesSent m s.answers), busLate := 0,
      trace := s.trace ++ dataEvents (s.plIn.take (bytesSent m s.answers)) (s.answers.take (bytesSent m s.answers)),
      rsps := s.rsps ++ [responseWord .ok (BitVec.ofNat 16 (nok + bytesWritten m s.answers))] } := by
  induction m generalizing s k nok n with
  | zero => omega
  | succ m ih =>
    obtain ⟨b, pl, hb⟩ := List.exists_cons_of_length_pos (Nat.zero_lt_of_lt hp)
    obtain ⟨c, as, hc⟩ := answers_of_bytesSent_le ha
    obtain ⟨n, rfl⟩ : ∃ j, n = j + 2 := ⟨n - 2, by omega⟩
    have hsent : (s.byteSent b c pl as).Idle := hs
    have hleft : m ≤ pl.length := by simpa [hb] using hp
    rw [runOf_write_sends hs (by omega) hb hc]
    cases hfail : c == 0 with
    | true =>
      rw [runOf_write_drains hsent (by omega) hleft (by omega), hc,
        bytesSent_of_failed hfail, bytesWritten_of_failed hfail]
      simp [State.byteSent, hb, dataEvents, successes_of_failed hfail]
    | false =>
      rw [hc, bytesSent_of_sent hfail] at ha
      rw [successes_of_sent hfail, hc, bytesSent_of_sent hfail, bytesWritten_of_sent hfail]
      cases m with
      | zero =>
        obtain ⟨n, rfl⟩ : ∃ j, n = j + 1 := ⟨n - 1, by omega⟩
        rw [runOf_write_responds hsent (by omega)]
        simp [State.byteSent, hb, dataEvents, bytesSent, bytesWritten]
      | succ m =>
        rw [ih hsent (by omega) (by omega) hleft (Nat.le_of_succ_le_succ ha) (by omega)]
        simp [State.byteSent, State.answers, hb, dataEvents, Nat.add_assoc, Nat.add_comm 1]

/-- Settles O44: the loop from its first byte. -/
theorem writeStopsAtFirstFailure : Obligations.WriteStopsAtFirstFailure := by
  intro s len hs hpos hp ha
  have hentry : s.streaming (.write len) 2 0 0 false = s.writing len 0 0 false := by rw [State.writing, if_pos hpos]
  rw [exec_write_enters hs, hentry, runOf_write_streams hs.left hpos rfl hp ha (by omega), Nat.zero_add]

/-- Settles O45: the loop ends before its first byte. -/
theorem emptyWriteRespondsZero : Obligations.EmptyWriteRespondsZero := by
  intro s hs
  have hexit : runOf (.write 0) 62 (s.streaming (.write 0) 2 0 0 false) = runOf (.write 0) 61 (s.writing 0 0 0 false) :=
    runOf_micro hs.left.streaming_betweenOps rfl rfl
  exact (exec_write_enters hs).trans (congrArg _ (hexit.trans (runOf_write_responds hs.left rfl)))

end Sys2Proof.Machine
end

section
/-! The backlight pass-through commands: one request forwarded to the adapter, and the response that reports its answer
as a Boolean (R200 to R205). -/

namespace Sys2Proof.Machine

variable {i : Instr} {s : State} {r : BusReq} {a : Byte} {rest : List Byte}

/-- R82 and R87: only the byte 0 answers false. -/
theorem boolVal_eq_ite (a : Byte) : boolVal a = if a = 0 then 0 else 1 := by
  by_cases ha : a = 0 <;> simp [boolVal, boolAnswer, ha]

/-- The steps the backlight commands share, over the request they forward (R200, R202, R204). -/
def microForward (r : BusReq) (s : State) : Option State :=
  match s.upc with
  | 1 => s.request r
  | 2 => some (s.respond .ok (boolVal s.cnt))
  | _ => none

theorem microProgram_blsup : microProgram .blsup = microForward .blSupported := rfl

theorem microProgram_blset (b : Bool) : microProgram (.blset b) = microForward (.blSet b) := rfl

theorem microProgram_blget : microProgram .blget = microForward .blGet := rfl

/-- The request and its answer, the response: nothing else changes. -/
theorem exec_of_forward (hs : s.ReadyIdle) (hi : KeepsCount i) (hm : microProgram i = microForward r)
    (ha : s.answers = a :: rest) :
    exec i s = .next { s with
      busIn := rest, busLate := 0, trace := s.trace ++ [.bus r a],
      rsps := s.rsps ++ [responseWord .ok (if a = 0 then 0 else 1)] } := by
  have hb : (s.begun i).BetweenOps := hs.left.begun_betweenOps
  have hanswered : ({ s with busIn := rest, busLate := 0, trace := s.trace ++ [.bus r a] } : State).Idle := hs.left
  rw [exec_of_readyIdle hs hi, runOf_countedRequest (r := r) hb hi (by rw [hm]; rfl) ha,
    runOf_last hb.counted (by rw [hm]; rfl) rfl, ← boolVal_eq_ite]
  exact congrArg _ (hanswered.respond 2 (commandWord i) .ok (boolVal a))

/-- Settles O46: the three commands are one micro-program over three requests. -/
theorem backlightCommandsForward : Obligations.BacklightCommandsForward :=
  fun _ _ _ hs ha =>
    ⟨exec_of_forward hs ⟨rfl, rfl, rfl, rfl⟩ microProgram_blsup ha,
      fun b => exec_of_forward hs ⟨rfl, rfl, rfl, rfl⟩ (microProgram_blset b) ha,
      exec_of_forward hs ⟨rfl, rfl, rfl, rfl⟩ microProgram_blget ha⟩

end Sys2Proof.Machine
end

section
/-! Words that are turned away: the payload is drained and the error response driven, and the block is as it was (R222 to
R225). With it the states in which a step does nothing (R237, R241), and that every step answers a state (R228). -/

namespace Sys2Proof.Machine

variable {i : Instr} {s : State} {w : Word} {st : Status} {len n m k : Nat} {body : State → Option State}
  {answered : BusReq → Byte → State → State}

/-! ### Payload lengths fit the counter `K` -/

theorem paylen_lt (w : Word) : paylen w < 2 ^ 16 := by
  unfold paylen
  split_ifs
  · decide
  · exact (field w 16 16).isLt
  · decide

theorem payloadLength_lt (i : Instr) : payloadLength i < 2 ^ 16 := by
  cases i with
  | pattern slot => exact (by decide : Config.cgRows < 2 ^ 16)
  | write len => exact len.isLt
  | _ => exact Nat.two_pow_pos 16

/-! ### One transaction of a rejection -/

theorem drain_of_byte {b : Byte} {pl : List Byte} (hk : s.k.toNat < len) (hp : s.plIn = b :: pl) :
    s.drain st len = some { s with plIn := pl, k := s.k + 1 } := by
  rw [State.drain, if_pos hk, take_of_byte hp]

theorem drain_of_taken (hk : len ≤ s.k.toNat) : s.drain st len = some (s.raiseError st) := by
  rw [State.drain, if_neg (by omega)]

/-! ### A whole rejection -/

/-- In phase `p` a word not yet admitted is turned away: `body` drains its payload of `len` bytes (R222). -/
def Rejects (body : State → Option State) (st : Status) (len : Nat) (p : Phase) : Prop :=
  ∀ u : State, u.upc = 0 → u.phase = p → body u = u.drain st len

/-- R225: a word whose value constraint fails is illegal, whatever the phase. -/
theorem rejects_of_illFormed (hw : i.wellFormed = false) (micro : State → Option State) (p : Phase) :
    Rejects (commandBody i micro) .errIllegal (payloadLength i) p := by
  intro u hu _
  simp [commandBody, hu, State.admission, hw]

/-- R224. -/
theorem rejects_of_not_admitted {p : Phase} (hw : i.wellFormed = true) (ha : admitted i p = false)
    (micro : State → Option State) : Rejects (commandBody i micro) .errState (payloadLength i) p := by
  rintro u hu rfl
  simp [commandBody, hu, State.admission, hw, ha]

/-- An idle block that has accepted the word `w` and taken `k` bytes of its payload, without admitting it. -/
def State.rejecting (w : Word) (k : Nat) (s : State) : State :=
  { s with busy := true, ir := w, k := BitVec.ofNat 16 k }

theorem State.Idle.accept_eq_rejecting (hs : s.Idle) (w : Word) : s.accept w = s.rejecting w 0 := by
  obtain ⟨-, hupc, -, hnok, hstop, -, hcnt, hbreq, htreq⟩ := hs
  simp [State.accept, State.rejecting, hupc, hnok, hstop, hcnt, hbreq, htreq]

theorem State.Idle.tick_rejecting (hs : s.Idle) (hbody : Rejects body st len s.phase) :
    tick body answered (s.rejecting w k) = (s.rejecting w k).drain st len := by
  obtain ⟨-, hupc, -, -, -, -, -, hbreq, htreq⟩ := hs
  exact (tick_body (s := s.rejecting w k) hbreq htreq).trans (hbody _ hupc rfl)

theorem toNat_k_rejecting (hk : k < 2 ^ 16) : (s.rejecting w k).k.toNat = k := by
  rw [State.rejecting, BitVec.toNat_ofNat, Nat.mod_eq_of_lt hk]

/-- The error response clears `K` with what else the acceptance has set. -/
theorem State.Idle.raiseError_rejecting (hs : s.Idle) :
    (s.rejecting w k).raiseError st = { s with rsps := s.rsps ++ [responseWord st 0] } := by
  obtain ⟨hbusy, hupc, hk, hnok, hstop, hir, hcnt, -, -⟩ := hs
  simp [State.raiseError, State.respond, State.rejecting, hbusy, hupc, hk, hnok, hstop, hir, hcnt]

/-- A byte of the payload is taken and not looked at. -/
theorem run_rejecting_takes {b : Byte} {pl : List Byte} (hs : s.Idle) (hbody : Rejects body st len s.phase)
    (hlen : len < 2 ^ 16) (hk : k < len) (hp : s.plIn = b :: pl) :
    run body answered (n + 1) (s.rejecting w k) =
      run body answered n ({ s with plIn := pl }.rejecting w (k + 1)) := by
  have hmore : (s.rejecting w k).k.toNat < len := by rwa [toNat_k_rejecting (by omega)]
  rw [run_goes_on ((hs.tick_rejecting hbody).trans (drain_of_byte hmore hp)) rfl, State.rejecting, State.rejecting,
    BitVec.ofNat_add]
  rfl

/-- The whole payload is taken: the error response ends the run. -/
theorem run_rejecting_responds (hs : s.Idle) (hbody : Rejects body st len s.phase) (hlen : len < 2 ^ 16) :
    run body answered (n + 1) (s.rejecting w len) = { s with rsps := s.rsps ++ [responseWord st 0] } := by
  have hdone : len ≤ (s.rejecting w len).k.toNat := (toNat_k_rejecting hlen).ge
  rw [run_ends ((hs.tick_rejecting hbody).trans (drain_of_taken hdone)) rfl, hs.raiseError_rejecting]

/-- R222 with `m` bytes of the payload left: all are taken, the error response is driven, nothing else changes. -/
theorem run_rejecting_drains (hs : s.Idle) (hbody : Rejects body st len s.phase) (hlen : len < 2 ^ 16)
    (hm : m + k = len) (hp : m ≤ s.plIn.length) (hn : m < n) :
    run body answered n (s.rejecting w k) =
      { s with plIn := s.plIn.drop m, rsps := s.rsps ++ [responseWord st 0] } := by
  obtain ⟨n, rfl⟩ : ∃ j, n = j + 1 := ⟨n - 1, by omega⟩
  induction m generalizing s k n with
  | zero =>
    obtain rfl : k = len := by omega
    exact run_rejecting_responds hs hbody hlen
  | succ m ih =>
    obtain ⟨b, pl, hb⟩ := List.exists_cons_of_length_pos (Nat.zero_lt_of_lt hp)
    obtain ⟨n, rfl⟩ : ∃ j, n = j + 1 := ⟨n - 1, by omega⟩
    have hleft : m ≤ pl.length := by simpa [hb] using hp
    rw [run_rejecting_takes hs hbody hlen (by omega) hb,
      ih (s := { s with plIn := pl }) hs hbody (by omega) hleft n (by omega)]
    simp [hb]

/-- R222: an accepted word that is turned away, its whole payload presented. -/
theorem run_accept_rejects (hs : s.Idle) (hbody : Rejects body st len s.phase) (hlen : len < 2 ^ 16)
    (hp : len ≤ s.plIn.length) :
    run body answered (runBound len) (s.accept w) =
      { s with plIn := s.plIn.drop len, rsps := s.rsps ++ [responseWord st 0] } := by
  rw [hs.accept_eq_rejecting]
  exact run_rejecting_drains hs hbody hlen rfl hp (by rw [runBound]; omega)

/-- A command that is turned away on an idle block. -/
theorem exec_of_rejects (hs : s.Idle) (hc : i.isCommand = true)
    (hbody : Rejects (commandBody i (microProgram i)) st (payloadLength i) s.phase)
    (hp : payloadLength i ≤ s.plIn.length) :
    exec i s = .next { s with
      plIn := s.plIn.drop (payloadLength i), rsps := s.rsps ++ [responseWord st 0] } := by
  rw [exec_command hc, runCommand_of_idle hs.left, run_accept_rejects hs hbody (payloadLength_lt i) hp]

/-- Settles O24: the word's body is the draining itself, in every phase. -/
theorem illegalWordIsAnswered : Obligations.IllegalWordIsAnswered := by
  intro s w ws e hr hs hc hd hp
  have hidle : { s with cmdIn := ws }.Idle := hs
  obtain ⟨hbusy, -, -, -, -, -, -, hbreq, -⟩ := hs
  rw [step_of_presented_illegal hr hbusy hbreq hc hd, runIllegal,
    run_accept_rejects hidle (fun _ _ _ => rfl) (paylen_lt w) hp]
  rfl

/-- Settles O25: the admission drains instead of going on. -/
theorem misplacedCommandIsAnswered : Obligations.MisplacedCommandIsAnswered :=
  fun _ i hs hc hw ha hp => exec_of_rejects hs hc (rejects_of_not_admitted hw ha (microProgram i)) hp

/-- Settles O27: an illegal line count is ill formed, and INIT has no payload. -/
theorem illegalLineCountBeatsPhase : Obligations.IllegalLineCountBeatsPhase := by
  intro s w h p m hs hh
  have hillegal : (Instr.init w h p m).wellFormed = false := by
    rw [Bool.eq_false_iff]
    intro hl
    obtain ⟨hpos, hle⟩ := (legalLines_iff h).mp hl
    obtain rfl | hbig := hh
    · cases hpos
    · omega
  exact exec_of_rejects hs rfl (rejects_of_illFormed hillegal _ s.phase) (Nat.zero_le _)

/-- Settles O26: a row for each command; DEINIT's is the one that lists its phases. -/
theorem admissionTable : Obligations.AdmissionTable := by
  intro i p hc
  cases i with
  | deinit => cases p <;> decide
  | lcdClear | lcdHome | lcdEntryMode | lcdDisplayControl | lcdShift | lcdFunctionSet | lcdSetCgram | lcdSetDdram
  | lcdNibbleResync | lcdNibbleModefix | lcdData => cases hc
  | _ => exact beq_iff_eq

/-! ### Steps in which nothing happens, and steps at all -/

theorem step_of_busy_waiting (hr : s.rst = false) (hb : s.busy = true)
    (ht : tick (bodyOfWord s.ir) (answeredOfWord s.ir) s = none) : step s = .next s := by
  obtain ⟨n, hn⟩ := step_of_busy hr hb
  rw [hn, run_waits ht]

/-- Settles O20: no word, and no request on the port of an idle block. -/
theorem idleBlockDoesNothing : Obligations.IdleBlockDoesNothing := by
  rintro s hr ⟨hbusy, -, -, -, -, -, -, hbreq, -⟩ hc
  exact step_of_no_word hr hbusy hbreq hc

/-- Settles O21: the running command's next transaction is the exchange or the wait, which has no answer. -/
theorem unansweredBlockHangs : Obligations.UnansweredBlockHangs :=
  ⟨fun _ _ hr hb hq ha => step_of_busy_waiting hr hb ((tick_bus hq).trans (transfer_of_no_answer ha)),
    fun _ _ hr hb hq ht hd => step_of_busy_waiting hr hb ((tick_timer hq ht).trans (elapse_of_no_done hd))⟩

/-- Settles O56: a step is a number of transactions, each of which answers a state. -/
theorem stepNeverStops : Obligations.StepNeverStops := by
  intro s
  obtain ⟨n, hn⟩ := stepIsTransactions s
  exact ⟨_, hn⟩

end Sys2Proof.Machine
end

section
/-! Hardware reset with a request outstanding (R250, R251; O12 to O14): the reset counts what was outstanding as late, so the
next answer of that port, and of that port only, is skipped whenever it arrives. -/

namespace Sys2Proof.Machine

variable {s : State}

theorem State.answers_hardReset_of_request {r : BusReq} (hq : s.breq = some r) (arrived : List Byte) :
    { s.hardReset with busIn := arrived }.answers = { s with busIn := arrived }.answers.drop 1 := by
  simp [State.answers, hq]

theorem State.answers_hardReset_of_no_request (hq : s.breq = none) : s.hardReset.answers = s.answers := by
  simp [State.answers, hq]

theorem State.dones_hardReset_of_wait {us : Half} (hq : s.treq = some us) (arrived : Nat) :
    { s.hardReset with timerIn := arrived }.dones = { s with timerIn := arrived }.dones - 1 := by
  simp [State.dones, hq, Nat.sub_sub]

theorem State.dones_hardReset_of_no_wait (hq : s.treq = none) : s.hardReset.dones = s.dones := by
  simp [State.dones, hq]

/-- Settles O12: the step is the hardware reset, whose registers are those of the state after reset. -/
theorem hardwareResetResetsEveryRegister : Obligations.HardwareResetResetsEveryRegister :=
  fun s hr => ⟨s.hardReset, step_of_reset hr,
    rfl, rfl, rfl, rfl, rfl, rfl, rfl, rfl, rfl, rfl, rfl, rfl, rfl, rfl, rfl, s.hardReset_trace⟩

/-- Settles O13: the cut-off request makes the adapter's next answer a late one; no wait was cut off. -/
theorem resetDuringBusRequest : Obligations.ResetDuringBusRequest := by
  intro s r hr hb ht
  have htrace : s.hardReset.trace = s.trace ++ [.busCut r] := by simp [hb, ht]
  exact ⟨s.hardReset, step_of_reset hr, s.hardReset_rsps, htrace,
    fun later => State.answers_hardReset_of_request hb (s.busIn ++ later),
    State.dones_hardReset_of_no_wait ht, s.hardReset_plIn, s.hardReset_cmdIn⟩

/-- Settles O14: the cut-off wait makes the timer's next done a late one; no bus request was cut off. -/
theorem resetDuringWait : Obligations.ResetDuringWait := by
  intro s us hr hb ht
  have htrace : s.hardReset.trace = s.trace ++ [.waitCut us] := by simp [hb, ht]
  exact ⟨s.hardReset, step_of_reset hr, s.hardReset_rsps, htrace,
    fun later => State.dones_hardReset_of_wait ht (s.timerIn + later),
    State.answers_hardReset_of_no_request hb, s.hardReset_plIn, s.hardReset_cmdIn⟩

end Sys2Proof.Machine
end
